-- ==== Sys2Proof/Word.lean ====
section
/-! DEFINITION. The two word sizes of the Z80 (00_scope.md R5): 8-bit data and 16-bit addresses. -/

namespace Sys2Proof

/-- An 8-bit value: a register, a memory byte, a port's data (R5, R8). -/
abbrev Byte := BitVec 8

/-- A 16-bit value: an address, a register pair (R5, R8). -/
abbrev Word := BitVec 16

end Sys2Proof
end

