-- ==== Sys2Proof/Config.lean ====
section
/-! DEFINITION. The free values: opaque constants whose value no proof can see (00_scope.md R12). The parameters of
00_scope.md R6 are data of State: `params`, `memMap`, `devices` and the queues of the environment. -/

namespace Sys2Proof.Config

/-- A one-bit `draw` (R12): the n-th drawn bit is `freeBit n` for the n that `State.draws` holds. Log 5. -/
opaque freeBit : Nat → Bool

/-- An 8-bit `draw` (R12). Log 5. -/
opaque freeByte : Nat → BitVec 8

/-- A 16-bit `draw` (R12). Log 5. -/
opaque freeWord : Nat → BitVec 16

end Sys2Proof.Config
end

