-- ==== Sys2Proof/Syntax.lean ====
section
/-! DEFINITION. The abstract syntax of the Z80: operand types and `Instr`, one constructor per row of
spec/opcode_table.json, in the table's order. Register and condition codes are already turned into
constructors (30_encoding.md R96 to R102), so a term holds no raw field that could be reserved; the one
check left is the RST operand (WellFormed.lean). -/

namespace Sys2Proof

/-- The seven registers an 8-bit register code names (30_encoding.md R96); code 110 is none of them. -/
inductive Reg8 where
  | b | c | d | e | h | l | a
  deriving DecidableEq, Repr

/-- Register pairs of `dd` and `ss` (R97). -/
inductive Pair where
  | bc | de | hl | sp
  deriving DecidableEq, Repr

/-- Register pairs of `qq`, PUSH and POP (R98). -/
inductive PairQ where
  | bc | de | hl | af
  deriving DecidableEq, Repr

/-- Register pairs of `pp`, ADD IX (R99): code 10 is IX itself. -/
inductive PairX where
  | bc | de | ix | sp
  deriving DecidableEq, Repr

/-- Register pairs of `rr`, ADD IY (R99): code 10 is IY itself. -/
inductive PairY where
  | bc | de | iy | sp
  deriving DecidableEq, Repr

/-- Condition codes `cc` (R100). -/
inductive Cond where
  | nz | z | nc | c | po | pe | p | m
  deriving DecidableEq, Repr

/-- The destination of `IN r,(C)` (49_io.md R452): a register, or, for r = 110, the flags alone. -/
inductive InDest where
  | reg (r : Reg8)
  | flagsOnly
  deriving DecidableEq, Repr

/-- An instruction. `n` is an immediate byte (R103), `d` the displacement byte (R104), `nn` a 16-bit operand
(R105), `e` the stored relative byte, that is the assembler's e - 2 (R106), `b` a bit number (R102), `p` the
restart address 8 * t (R101). Each constructor's docstring gives the source's mnemonic and its rule. -/
inductive Instr where
  -- 8-bit loads (40_load8.md)
  /-- `LD r,r'` (R131) -/
  | ldRegReg (r : Reg8) (r' : Reg8)
  /-- `LD r,n` (R132) -/
  | ldRegImm (r : Reg8) (n : Byte)
  /-- `LD r,(HL)` (R133) -/
  | ldRegMemHl (r : Reg8)
  /-- `LD r,(IX+d)` (R134) -/
  | ldRegMemIx (r : Reg8) (d : Byte)
  /-- `LD r,(IY+d)` (R135) -/
  | ldRegMemIy (r : Reg8) (d : Byte)
  /-- `LD (HL),r` (R136) -/
  | ldMemHlReg (r : Reg8)
  /-- `LD (IX+d),r` (R137) -/
  | ldMemIxReg (d : Byte) (r : Reg8)
  /-- `LD (IY+d),r` (R138) -/
  | ldMemIyReg (d : Byte) (r : Reg8)
  /-- `LD (HL),n` (R139) -/
  | ldMemHlImm (n : Byte)
  /-- `LD (IX+d),n` (R140) -/
  | ldMemIxImm (d : Byte) (n : Byte)
  /-- `LD (IY+d),n` (R141) -/
  | ldMemIyImm (d : Byte) (n : Byte)
  /-- `LD A,(BC)` (R142) -/
  | ldAMemBc
  /-- `LD A,(DE)` (R143) -/
  | ldAMemDe
  /-- `LD A,(nn)` (R144) -/
  | ldAMemNn (nn : Word)
  /-- `LD (BC),A` (R145) -/
  | ldMemBcA
  /-- `LD (DE),A` (R146) -/
  | ldMemDeA
  /-- `LD (nn),A` (R147) -/
  | ldMemNnA (nn : Word)
  /-- `LD A,I` (R148) -/
  | ldAI
  /-- `LD A,R` (R149) -/
  | ldAR
  /-- `LD I,A` (R150) -/
  | ldIA
  /-- `LD R,A` (R151) -/
  | ldRA
  -- 16-bit loads (41_load16.md)
  /-- `LD dd,nn` (R161) -/
  | ldPairImm (dd : Pair) (nn : Word)
  /-- `LD IX,nn` (R162) -/
  | ldIxImm (nn : Word)
  /-- `LD IY,nn` (R163) -/
  | ldIyImm (nn : Word)
  /-- `LD HL,(nn)` (R164) -/
  | ldHlMemNn (nn : Word)
  /-- `LD dd,(nn)` (R165) -/
  | ldPairMemNn (dd : Pair) (nn : Word)
  /-- `LD IX,(nn)` (R166) -/
  | ldIxMemNn (nn : Word)
  /-- `LD IY,(nn)` (R167) -/
  | ldIyMemNn (nn : Word)
  /-- `LD (nn),HL` (R168) -/
  | ldMemNnHl (nn : Word)
  /-- `LD (nn),dd` (R169) -/
  | ldMemNnPair (nn : Word) (dd : Pair)
  /-- `LD (nn),IX` (R170) -/
  | ldMemNnIx (nn : Word)
  /-- `LD (nn),IY` (R171) -/
  | ldMemNnIy (nn : Word)
  /-- `LD SP,HL` (R172) -/
  | ldSpHl
  /-- `LD SP,IX` (R173) -/
  | ldSpIx
  /-- `LD SP,IY` (R174) -/
  | ldSpIy
  /-- `PUSH qq` (R175) -/
  | pushPair (qq : PairQ)
  /-- `PUSH IX` (R176) -/
  | pushIx
  /-- `PUSH IY` (R177) -/
  | pushIy
  /-- `POP qq` (R178) -/
  | popPair (qq : PairQ)
  /-- `POP IX` (R179) -/
  | popIx
  /-- `POP IY` (R180) -/
  | popIy
  -- exchange, block transfer, block search (42_exchange_block.md)
  /-- `EX DE,HL` (R191) -/
  | exDeHl
  /-- `EX AF,AF'` (R192) -/
  | exAfAf
  /-- `EXX` (R193) -/
  | exx
  /-- `EX (SP),HL` (R194) -/
  | exMemSpHl
  /-- `EX (SP),IX` (R195) -/
  | exMemSpIx
  /-- `EX (SP),IY` (R196) -/
  | exMemSpIy
  /-- `LDI` (R197) -/
  | ldi
  /-- `LDIR` (R198) -/
  | ldir
  /-- `LDD` (R199) -/
  | ldd
  /-- `LDDR` (R200) -/
  | lddr
  /-- `CPI` (R201) -/
  | cpi
  /-- `CPIR` (R202) -/
  | cpir
  /-- `CPD` (R203) -/
  | cpd
  /-- `CPDR` (R204) -/
  | cpdr
  -- 8-bit arithmetic and logic (43_alu8.md)
  /-- `ADD A,r` (R220) -/
  | addReg (r : Reg8)
  /-- `ADD A,n` (R221) -/
  | addImm (n : Byte)
  /-- `ADD A,(HL)` (R222) -/
  | addMemHl
  /-- `ADD A,(IX+d)` (R223) -/
  | addMemIx (d : Byte)
  /-- `ADD A,(IY+d)` (R224) -/
  | addMemIy (d : Byte)
  /-- `ADC A,r` (R225) -/
  | adcReg (r : Reg8)
  /-- `ADC A,n` (R226) -/
  | adcImm (n : Byte)
  /-- `ADC A,(HL)` (R227) -/
  | adcMemHl
  /-- `ADC A,(IX+d)` (R228) -/
  | adcMemIx (d : Byte)
  /-- `ADC A,(IY+d)` (R229) -/
  | adcMemIy (d : Byte)
  /-- `SUB r` (R230) -/
  | subReg (r : Reg8)
  /-- `SUB n` (R231) -/
  | subImm (n : Byte)
  /-- `SUB (HL)` (R232) -/
  | subMemHl
  /-- `SUB (IX+d)` (R233) -/
  | subMemIx (d : Byte)
  /-- `SUB (IY+d)` (R234) -/
  | subMemIy (d : Byte)
  /-- `SBC A,r` (R235) -/
  | sbcReg (r : Reg8)
  /-- `SBC A,n` (R236) -/
  | sbcImm (n : Byte)
  /-- `SBC A,(HL)` (R237) -/
  | sbcMemHl
  /-- `SBC A,(IX+d)` (R238) -/
  | sbcMemIx (d : Byte)
  /-- `SBC A,(IY+d)` (R239) -/
  | sbcMemIy (d : Byte)
  /-- `AND r` (R240) -/
  | andReg (r : Reg8)
  /-- `AND n` (R241) -/
  | andImm (n : Byte)
  /-- `AND (HL)` (R242) -/
  | andMemHl
  /-- `AND (IX+d)` (R243) -/
  | andMemIx (d : Byte)
  /-- `AND (IY+d)` (R244) -/
  | andMemIy (d : Byte)
  /-- `OR r` (R245) -/
  | orReg (r : Reg8)
  /-- `OR n` (R246) -/
  | orImm (n : Byte)
  /-- `OR (HL)` (R247) -/
  | orMemHl
  /-- `OR (IX+d)` (R248) -/
  | orMemIx (d : Byte)
  /-- `OR (IY+d)` (R249) -/
  | orMemIy (d : Byte)
  /-- `XOR r` (R250) -/
  | xorReg (r : Reg8)
  /-- `XOR n` (R251) -/
  | xorImm (n : Byte)
  /-- `XOR (HL)` (R252) -/
  | xorMemHl
  /-- `XOR (IX+d)` (R253) -/
  | xorMemIx (d : Byte)
  /-- `XOR (IY+d)` (R254) -/
  | xorMemIy (d : Byte)
  /-- `CP r` (R255) -/
  | cpReg (r : Reg8)
  /-- `CP n` (R256) -/
  | cpImm (n : Byte)
  /-- `CP (HL)` (R257) -/
  | cpMemHl
  /-- `CP (IX+d)` (R258) -/
  | cpMemIx (d : Byte)
  /-- `CP (IY+d)` (R259) -/
  | cpMemIy (d : Byte)
  /-- `INC r` (R260) -/
  | incReg (r : Reg8)
  /-- `INC (HL)` (R261) -/
  | incMemHl
  /-- `INC (IX+d)` (R262) -/
  | incMemIx (d : Byte)
  /-- `INC (IY+d)` (R263) -/
  | incMemIy (d : Byte)
  /-- `DEC r` (R264) -/
  | decReg (r : Reg8)
  /-- `DEC (HL)` (R265) -/
  | decMemHl
  /-- `DEC (IX+d)` (R266) -/
  | decMemIx (d : Byte)
  /-- `DEC (IY+d)` (R267) -/
  | decMemIy (d : Byte)
  -- general arithmetic and CPU control (44_general_cpu_control.md)
  /-- `DAA` (R290) -/
  | daa
  /-- `CPL` (R291) -/
  | cpl
  /-- `NEG` (R292) -/
  | neg
  /-- `CCF` (R293) -/
  | ccf
  /-- `SCF` (R294) -/
  | scf
  /-- `NOP` (R295) -/
  | nop
  /-- `HALT` (R296) -/
  | halt
  /-- `DI` (R297) -/
  | di
  /-- `EI` (R298) -/
  | ei
  /-- `IM 0` (R299) -/
  | im0
  /-- `IM 1` (R300) -/
  | im1
  /-- `IM 2` (R301) -/
  | im2
  -- 16-bit arithmetic (45_arith16.md)
  /-- `ADD HL,ss` (R316) -/
  | addHlPair (ss : Pair)
  /-- `ADC HL,ss` (R317) -/
  | adcHlPair (ss : Pair)
  /-- `SBC HL,ss` (R318) -/
  | sbcHlPair (ss : Pair)
  /-- `ADD IX,pp` (R319) -/
  | addIxPair (pp : PairX)
  /-- `ADD IY,rr` (R320) -/
  | addIyPair (rr : PairY)
  /-- `INC ss` (R321) -/
  | incPair (ss : Pair)
  /-- `INC IX` (R322) -/
  | incIx
  /-- `INC IY` (R323) -/
  | incIy
  /-- `DEC ss` (R324) -/
  | decPair (ss : Pair)
  /-- `DEC IX` (R325) -/
  | decIx
  /-- `DEC IY` (R326) -/
  | decIy
  -- rotate and shift (46_rotate_shift.md)
  /-- `RLCA` (R343) -/
  | rlca
  /-- `RLA` (R344) -/
  | rla
  /-- `RRCA` (R345) -/
  | rrca
  /-- `RRA` (R346) -/
  | rra
  /-- `RLC r` (R347) -/
  | rlcReg (r : Reg8)
  /-- `RLC (HL)` (R348) -/
  | rlcMemHl
  /-- `RLC (IX+d)` (R349) -/
  | rlcMemIx (d : Byte)
  /-- `RLC (IY+d)` (R350) -/
  | rlcMemIy (d : Byte)
  /-- `RL r` (R351) -/
  | rlReg (r : Reg8)
  /-- `RL (HL)` (R352) -/
  | rlMemHl
  /-- `RL (IX+d)` (R353) -/
  | rlMemIx (d : Byte)
  /-- `RL (IY+d)` (R354) -/
  | rlMemIy (d : Byte)
  /-- `RRC r` (R355) -/
  | rrcReg (r : Reg8)
  /-- `RRC (HL)` (R356) -/
  | rrcMemHl
  /-- `RRC (IX+d)` (R357) -/
  | rrcMemIx (d : Byte)
  /-- `RRC (IY+d)` (R358) -/
  | rrcMemIy (d : Byte)
  /-- `RR r` (R359) -/
  | rrReg (r : Reg8)
  /-- `RR (HL)` (R360) -/
  | rrMemHl
  /-- `RR (IX+d)` (R361) -/
  | rrMemIx (d : Byte)
  /-- `RR (IY+d)` (R362) -/
  | rrMemIy (d : Byte)
  /-- `SLA r` (R363) -/
  | slaReg (r : Reg8)
  /-- `SLA (HL)` (R364) -/
  | slaMemHl
  /-- `SLA (IX+d)` (R365) -/
  | slaMemIx (d : Byte)
  /-- `SLA (IY+d)` (R366) -/
  | slaMemIy (d : Byte)
  /-- `SRA r` (R367) -/
  | sraReg (r : Reg8)
  /-- `SRA (HL)` (R368) -/
  | sraMemHl
  /-- `SRA (IX+d)` (R369) -/
  | sraMemIx (d : Byte)
  /-- `SRA (IY+d)` (R370) -/
  | sraMemIy (d : Byte)
  /-- `SRL r` (R371) -/
  | srlReg (r : Reg8)
  /-- `SRL (HL)` (R372) -/
  | srlMemHl
  /-- `SRL (IX+d)` (R373) -/
  | srlMemIx (d : Byte)
  /-- `SRL (IY+d)` (R374) -/
  | srlMemIy (d : Byte)
  /-- `RLD` (R375) -/
  | rld
  /-- `RRD` (R376) -/
  | rrd
  -- bit test, set, reset (47_bit.md)
  /-- `BIT b,r` (R391) -/
  | bitReg (b : BitVec 3) (r : Reg8)
  /-- `BIT b,(HL)` (R392) -/
  | bitMemHl (b : BitVec 3)
  /-- `BIT b,(IX+d)` (R393) -/
  | bitMemIx (b : BitVec 3) (d : Byte)
  /-- `BIT b,(IY+d)` (R394) -/
  | bitMemIy (b : BitVec 3) (d : Byte)
  /-- `SET b,r` (R395) -/
  | setReg (b : BitVec 3) (r : Reg8)
  /-- `SET b,(HL)` (R396) -/
  | setMemHl (b : BitVec 3)
  /-- `SET b,(IX+d)` (R397) -/
  | setMemIx (b : BitVec 3) (d : Byte)
  /-- `SET b,(IY+d)` (R398) -/
  | setMemIy (b : BitVec 3) (d : Byte)
  /-- `RES b,r` (R399) -/
  | resReg (b : BitVec 3) (r : Reg8)
  /-- `RES b,(HL)` (R400) -/
  | resMemHl (b : BitVec 3)
  /-- `RES b,(IX+d)` (R401) -/
  | resMemIx (b : BitVec 3) (d : Byte)
  /-- `RES b,(IY+d)` (R402) -/
  | resMemIy (b : BitVec 3) (d : Byte)
  -- jump, call, return (48_jump_call_return.md)
  /-- `JP nn` (R411) -/
  | jp (nn : Word)
  /-- `JP cc,nn` (R412) -/
  | jpCond (cc : Cond) (nn : Word)
  /-- `JR e` (R413) -/
  | jr (e : Byte)
  /-- `JR C,e` (R414) -/
  | jrC (e : Byte)
  /-- `JR NC,e` (R415) -/
  | jrNc (e : Byte)
  /-- `JR Z,e` (R416) -/
  | jrZ (e : Byte)
  /-- `JR NZ,e` (R417) -/
  | jrNz (e : Byte)
  /-- `JP (HL)` (R418) -/
  | jpHl
  /-- `JP (IX)` (R419) -/
  | jpIx
  /-- `JP (IY)` (R420) -/
  | jpIy
  /-- `DJNZ e` (R421) -/
  | djnz (e : Byte)
  /-- `CALL nn` (R423) -/
  | call (nn : Word)
  /-- `CALL cc,nn` (R424) -/
  | callCond (cc : Cond) (nn : Word)
  /-- `RET` (R425) -/
  | ret
  /-- `RET cc` (R426) -/
  | retCond (cc : Cond)
  /-- `RETI` (R427) -/
  | reti
  /-- `RETN` (R428) -/
  | retn
  /-- `RST p` (R429) -/
  | rst (p : Byte)
  -- input and output (49_io.md)
  /-- `IN A,(n)` (R451) -/
  | inAImm (n : Byte)
  /-- `IN r,(C)` (R452) -/
  | inRegC (t : InDest)
  /-- `INI` (R453) -/
  | ini
  /-- `INIR` (R454) -/
  | inir
  /-- `IND` (R455) -/
  | ind
  /-- `INDR` (R456) -/
  | indr
  /-- `OUT (n),A` (R457) -/
  | outImmA (n : Byte)
  /-- `OUT (C),r` (R458) -/
  | outCReg (r : Reg8)
  /-- `OUTI` (R459) -/
  | outi
  /-- `OTIR` (R460) -/
  | otir
  /-- `OUTD` (R461) -/
  | outd
  /-- `OTDR` (R462) -/
  | otdr
  deriving DecidableEq, Repr

/-- Why bytes form no instruction (30_encoding.md R120); `truncated` is the decoder's own, for a list that ends
inside an instruction. -/
inductive DecodeError where
  /-- CB 30 to CB 37. -/
  | undefinedCb (op : Byte)
  /-- ED before a byte that R116 does not list. -/
  | undefinedEd (op : Byte)
  /-- DD before a byte that R117 does not list. -/
  | undefinedDd (op : Byte)
  /-- FD before a byte that R117 does not list. -/
  | undefinedFd (op : Byte)
  /-- DD CB d before a byte that R118 does not list. -/
  | undefinedDdCb (op : Byte)
  /-- FD CB d before a byte that R118 does not list. -/
  | undefinedFdCb (op : Byte)
  /-- The byte list ends before the instruction does. -/
  | truncated
  deriving DecidableEq, Repr

end Sys2Proof
end

