-- ==== Sys2Proof/Machine/State.lean ====
section
/-! DEFINITION. The state of the machine as plain data: the CPU's registers and control state (10_state.md), memory
and what occupies it (20_memory.md), the platform devices the spec describes (60_exceptions.md sections 6, 8 and 9),
and the model's own fields: the queues of what the environment does, the log of bus cycles, the counter of drawn
free values and the count of T states. Beside it the reasons a step can stop, and the state after reset (R46). -/

namespace Sys2Proof.Machine

/-! ### CPU -/

/-- F, the record of the six named flags (R24 to R26); bits 5 and 3 are not state. -/
structure Flags where
  /-- Sign. -/
  s : Bool
  /-- Zero. -/
  z : Bool
  /-- Half-carry. -/
  h : Bool
  /-- Parity or overflow. -/
  pv : Bool
  /-- Add/Subtract. -/
  n : Bool
  /-- Carry/Link. -/
  c : Bool
  deriving DecidableEq, Repr

/-- One of the two register sets (R20, R28): A, F and B to L. -/
structure Bank where
  a : Byte
  f : Flags
  b : Byte
  c : Byte
  d : Byte
  e : Byte
  h : Byte
  l : Byte
  deriving DecidableEq, Repr

/-- The interrupt mode IM (R35). -/
inductive IntMode where
  | mode0 | mode1 | mode2
  deriving DecidableEq, Repr

/-! ### Memory -/

/-- Memory contents: (address, byte) pairs in one canonical form, see `Memory.wf` in Machine/Ops.lean. -/
abbrev Memory := List Host.Cell

/-- What occupies a range of memory that is not plain RAM (parameter MEM, R6, 92 D25). -/
inductive RegionKind where
  /-- Reads return the contents, writes are ignored. -/
  | rom
  /-- A memory-mapped device: it sees every access, and a read returns what it replies. -/
  | device
  /-- Nothing answers: a read returns a free value, writes are lost (R480). -/
  | absent
  deriving DecidableEq, Repr

/-- A range of addresses: `size` bytes from `base` upward. -/
structure Region where
  base : Nat
  size : Nat
  kind : RegionKind
  deriving DecidableEq, Repr

/-! ### The parameters of R6 that are fixed for a machine -/

/-- DMA_GRAIN (R6, R75, 92 D21): when another bus master may act. -/
inductive DmaGrain where
  /-- At the end of every machine cycle. -/
  | machineCycle
  /-- Between two instructions only. -/
  | instruction
  deriving DecidableEq, Repr

/-- The parameters a model takes as arguments (R6) that are neither a map of addresses nor a queue. No step changes
them. -/
structure Params where
  /-- BLOCK_OUT_B_PHASE (R450, 92 D24): the block outputs put B after its decrement on A8 to A15. Log 15. -/
  blockOutBAfter : Bool
  /-- RETI_COPIES_IFF2 (R427, 92 D36): RETI copies IFF2 to IFF1. Log 16. -/
  retiCopiesIff2 : Bool
  /-- R_MODEL (R33, 92 D17): LD A,R delivers the exact count; otherwise its low seven bits are drawn.
  Log 14. -/
  rExact : Bool
  /-- MODE0_INSTR (R506, 92 D14): the bytes, beside the eight restarts, that a device may supply in mode 0.
  Log 8. -/
  mode0Extra : List Byte
  /-- DMA_GRAIN (R75, 92 D21). Log 11. -/
  dmaGrain : DmaGrain
  deriving DecidableEq, Repr

/-- The spec's defaults (92 D14, D17, D21, D24, D36). Log 32. -/
def Params.default : Params :=
  { blockOutBAfter := true, retiCopiesIff2 := false, rExact := true, mode0Extra := [], dmaGrain := .machineCycle }

/-! ### Platform devices -/

/-- What a CTC channel's counter is doing (R563, R564, R566). -/
inductive CtcRun where
  /-- No time constant since a reset: the channel does not count. -/
  | stopped
  /-- Timer mode with D3 = 1: loaded, waiting for the CLK/TRG edge that starts it. -/
  | waiting
  /-- Counting down. -/
  | counting
  deriving DecidableEq, Repr

/-- A CTC channel (R561). -/
structure CtcChannel where
  /-- The channel control register, the last control word (R563). -/
  control : Byte
  /-- The last control word had D2 = 1 and its time constant has not come yet (R562). -/
  constantNext : Bool
  /-- The time constant register; 00H is 256 (R564). -/
  timeConstant : Byte
  /-- The down-counter; 00H is 256. -/
  down : Byte
  /-- Clock periods counted by the prescaler since its last output (timer mode). -/
  prescale : Nat
  run : CtcRun
  /-- Zero counts so far: each is a pulse on ZC/TO where the channel has that output, channels 0 to 2 (R561). -/
  zeroCounts : Nat
  /-- The channel of this chip whose ZC/TO output is wired to the CLK/TRG input, if any (parameter IO, log 20). -/
  source : Option (BitVec 2)
  /-- The slot has requested and is not yet acknowledged (R516). -/
  pending : Bool
  /-- The slot was acknowledged and RETI has not been seen (R516). -/
  underService : Bool
  deriving DecidableEq, Repr

/-- A Z80 CTC (R560 to R567). -/
structure Ctc where
  /-- The lowest of its four port addresses (R560, parameter IO). -/
  base : Byte
  /-- The chip's RESET input is wired to the CPU's, as it normally is (R573, parameter IO, log 20). -/
  resetWired : Bool
  ch0 : CtcChannel
  ch1 : CtcChannel
  ch2 : CtcChannel
  ch3 : CtcChannel
  /-- The vector register; bits 7 to 3 are programmed, the rest is 0 (R565). -/
  vector : Byte
  deriving DecidableEq, Repr

/-- The four PIO operating modes (R551). -/
inductive PioMode where
  | output | input | bidirectional | bitControl
  deriving DecidableEq, Repr

/-- Which word the next write to a PIO port's control address is (R552). -/
inductive PioNext where
  /-- A word identified by its own bits. -/
  | command
  /-- The I/O register control word that follows a mode 3 mode word. -/
  | direction
  /-- The mask word that follows an interrupt control word with D4 = 1. -/
  | mask
  deriving DecidableEq, Repr

/-- A PIO port (R551). -/
structure PioPort where
  mode : PioMode
  next : PioNext
  /-- The input/output control register: 1 = input (R552). -/
  direction : Byte
  /-- The mask register: 1 = masked (R552). -/
  mask : Byte
  /-- Mask control: AND of the unmasked inputs instead of OR. -/
  andLogic : Bool
  /-- Mask control: an input is active when High. -/
  activeHigh : Bool
  /-- The interrupt vector register; bit 0 is 0 (R553). -/
  vector : Byte
  /-- The interrupt enable flip-flop. -/
  enabled : Bool
  /-- An interrupt enable that waits for the next active M1 (R552). -/
  enableNext : Bool
  outputReg : Byte
  inputReg : Byte
  ready : Bool
  /-- The levels on the port data lines (mode 3). -/
  lines : Byte
  pending : Bool
  underService : Bool
  deriving DecidableEq, Repr

/-- A Z80 PIO (R550 to R554). -/
structure Pio where
  /-- The lowest of its four port addresses: A data, B data, A control, B control (R550). -/
  base : Byte
  portA : PioPort
  portB : PioPort
  deriving DecidableEq, Repr

/-- A device on the I/O bus and the interrupt daisy chain (R515). -/
inductive Device where
  | ctc (c : Ctc)
  | pio (p : Pio)
  deriving DecidableEq, Repr

/-! ### The environment -/

/-- What happens at a device's outer pins between two boundaries. `chip` is its place in `State.devices`. -/
inductive DeviceEvent where
  /-- An edge on a CTC channel's CLK/TRG input (R561, R563). -/
  | clkTrg (chip : Nat) (channel : BitVec 2) (rising : Bool)
  /-- A strobe pulse at a PIO port (B if `portB`), with the byte the outside device drives on the lines (R553). -/
  | strobe (chip : Nat) (portB : Bool) (data : Byte)
  /-- New levels on a PIO port's data lines (R553, mode 3). -/
  | lines (chip : Nat) (portB : Bool) (levels : Byte)
  /-- A PIO is reset by M1 held active without RD or IORQ (R554, R574). -/
  | pioReset (chip : Nat)
  /-- A CTC's own RESET input is held active for a legal time (R573). -/
  | ctcReset (chip : Nat)
  deriving DecidableEq, Repr

/-- What another bus master does while it has the bus (R75). -/
inductive DmaAccess where
  | memRead (a : Word)
  | memWrite (a : Word) (v : Byte)
  | ioWrite (port : Word) (v : Byte)
  | ioRead (port : Word)
  deriving DecidableEq, Repr

/-- What the environment does up to and at one instruction boundary (R482). -/
structure BoundaryInput where
  /-- RESET has been held active for a legal time. -/
  reset : Bool
  /-- That RESET came while the instruction before this boundary was in progress: it is abandoned (R570). Without
  `reset` it means nothing. -/
  abandons : Bool
  /-- RESET comes while the response to an interrupt accepted at this boundary is in progress (R570). Where none is
  accepted it means nothing. -/
  resetsResponse : Bool
  /-- BUSREQ is active at the boundary. -/
  busreq : Bool
  /-- A falling edge of NMI occurred since the last boundary. -/
  nmiEdge : Bool
  /-- A device outside the daisy chain holds INT active at the boundary. -/
  intLine : Bool
  /-- The byte on the data bus in an acknowledge cycle that no chain device answers (R502, R517). -/
  busByte : Byte
  /-- T states inserted by WAIT, taken by a bus grant (R77, R601), or during which RESET is held (R570, log 31). -/
  waitStates : Nat
  /-- What happened at the devices' outer pins. -/
  events : List DeviceEvent
  /-- What another bus master does if the bus is granted at this boundary. -/
  dma : List DmaAccess
  deriving DecidableEq, Repr

/-- Nothing happens: what an empty queue of inputs stands for. -/
def BoundaryInput.quiet : BoundaryInput :=
  { reset := false, abandons := false, resetsResponse := false, busreq := false, nmiEdge := false, intLine := false,
    busByte := 0#8, waitStates := 0, events := [], dma := [] }

/-- What can be seen on the bus, a machine cycle each (R62, R69, R70), and RETI as the devices decode it (R520). -/
inductive BusEvent where
  /-- An opcode fetch (M1) cycle. -/
  | opFetch (a : Word) (v : Byte)
  | memRead (a : Word) (v : Byte)
  | memWrite (a : Word) (v : Byte)
  | ioRead (port : Word) (v : Byte)
  | ioWrite (port : Word) (v : Byte)
  /-- An interrupt acknowledge cycle. -/
  | intAck (v : Byte)
  | reti
  /-- An access of another bus master, with the byte it moved. -/
  | other (x : DmaAccess) (v : Byte)
  deriving DecidableEq, Repr

/-! ### The machine -/

structure State where
  /-- The main register set: A, F, B, C, D, E, H, L (R20). -/
  regs : Bank
  /-- The alternate register set (R28). -/
  alt : Bank
  ix : Word
  iy : Word
  sp : Word
  pc : Word
  /-- The interrupt register (R32). -/
  i : Byte
  /-- The refresh register (R33). -/
  r : Byte
  iff1 : Bool
  iff2 : Bool
  im : IntMode
  /-- The NMI latch (R36). -/
  nmiPending : Bool
  /-- Set at the boundary that follows EI or DI (R37). -/
  noSample : Bool
  /-- The Halt state (R38). -/
  halted : Bool
  /-- BUSACK: another bus master has the bus (R75, R486). -/
  busGranted : Bool
  mem : Memory
  memMap : List Region
  params : Params
  /-- The Z80 peripherals, the one of highest interrupt priority first (R515). -/
  devices : List Device
  /-- What the environment does at the next boundaries, the next one first (R482). -/
  inputs : List BoundaryInput
  /-- Replies of devices outside the model to the next I/O reads (R70, parameter IO). -/
  ioReplies : List Byte
  /-- Replies of memory-mapped devices to the next reads of their addresses (R60, parameter MEM). Log 9. -/
  memReplies : List Byte
  /-- What another bus master does at the end of the next machine cycles, the next one first (R75, DMA_GRAIN). Log 11. -/
  cycleDma : List (List DmaAccess)
  /-- Every bus cycle so far, the newest first (R66, R69). -/
  busLog : List BusEvent
  /-- How many free values have been drawn (R12). -/
  draws : Nat
  /-- T states elapsed (R600). -/
  tStates : Nat
  deriving DecidableEq, Repr

/-- Why the machine stops with a fault: never. The CPU raises no synchronous exception (R480), so there is nothing
to construct. -/
inductive Fault where
  deriving DecidableEq, Repr

/-- Why a step has no meaning. -/
inductive Refusal where
  /-- Raised by `exec` for an instruction not modelled yet (none is left). Safe. -/
  | notModelled (mnemonic : String)
  /-- Raised by `step` when the bytes at PC are no instruction (R120, 92 D1). Safe: the machine stops where the
  hardware does something the spec does not give. -/
  | undefinedEncoding (why : DecodeError)
  /-- Raised by `step` when, in interrupt mode 0, the device supplies a byte that MODE0_INSTR does not allow or that is
  no one-byte instruction (R506, 92 D14). Safe: the spec gives no mechanism for it. -/
  | mode0Instruction (v : Byte)
  deriving DecidableEq, Repr

/-- What a meaning answers. -/
abbrev Result := Host.Outcome State Fault Refusal

/-- All flags 0. -/
def Flags.clear : Flags := { s := false, z := false, h := false, pv := false, n := false, c := false }

/-- All registers of a set 0. -/
def Bank.zero : Bank := { a := 0#8, f := Flags.clear, b := 0#8, c := 0#8, d := 0#8, e := 0#8, h := 0#8, l := 0#8 }

/-- The machine right after reset (R46, R570): PC, I, R, IFF1, IFF2, IM, halted, nmi_pending and no_sample as R46
gives them. The registers R46 calls unspecified are zero (log 2, DESIGN CHOICE); memory lists nothing (log 1); the
platform is 64K of RAM with no device and the spec's default parameters, and nothing has happened yet (logs 3, 9, 20, 32). -/
def State.reset : State :=
  { regs := Bank.zero, alt := Bank.zero, ix := 0#16, iy := 0#16, sp := 0#16, pc := 0#16, i := 0#8, r := 0#8,
    iff1 := false, iff2 := false, im := .mode0, nmiPending := false, noSample := false, halted := false,
    busGranted := false, mem := [], memMap := [], params := Params.default, devices := [], inputs := [],
    ioReplies := [], memReplies := [], cycleDma := [], busLog := [], draws := 0, tStates := 0 }

end Sys2Proof.Machine
end

