-- ==== Sys2Proof/Machine/Ctc.lean ====
section
/-! DEFINITION. The Z80 CTC as a platform device (60_exceptions.md R560 to R567): what a write to a channel's port
does, how a channel counts, the pulses on ZC/TO and where they are wired, and its hardware reset. What the spec leaves
open here is log 21 and log 22. -/

namespace Sys2Proof.Machine

/-! ### The channel control word (R563) -/

/-- D7: zero count requests an interrupt. -/
def CtcChannel.interruptEnabled (c : CtcChannel) : Bool := c.control.getLsbD 7

/-- D6: counter mode; otherwise timer mode. -/
def CtcChannel.counterMode (c : CtcChannel) : Bool := c.control.getLsbD 6

/-- D5: the prescaler's factor. -/
def CtcChannel.factor (c : CtcChannel) : Nat := if c.control.getLsbD 5 then 256 else 16

/-- D4: the active edge of CLK/TRG is the rising one. -/
def CtcChannel.risingActive (c : CtcChannel) : Bool := c.control.getLsbD 4

/-- D3: the timer waits for a CLK/TRG edge. -/
def CtcChannel.externalTrigger (c : CtcChannel) : Bool := c.control.getLsbD 3

/-! ### Counting (R561, R567) -/

/-- One count pulse: decrement, and at zero count reload the time constant, request if enabled, and pulse ZC/TO. -/
def CtcChannel.count (c : CtcChannel) : CtcChannel :=
  if c.down - 1#8 = 0#8 then
    { c with down := c.timeConstant, pending := c.pending || c.interruptEnabled, zeroCounts := c.zeroCounts + 1 }
  else { c with down := c.down - 1#8 }

/-- One period of the system clock: in timer mode the prescaler counts it. -/
def CtcChannel.tick (c : CtcChannel) : CtcChannel :=
  if c.run = .counting ∧ c.counterMode = false then
    if c.prescale + 1 < c.factor then { c with prescale := c.prescale + 1 }
    else CtcChannel.count { c with prescale := 0 }
  else c

/-- An active CLK/TRG edge: counted in counter mode, the start of a waiting timer (R563 D3, R564). -/
def CtcChannel.activeEdge (c : CtcChannel) : CtcChannel :=
  match c.run with
  | .stopped => c
  | .waiting =>
    if c.counterMode then CtcChannel.count { c with run := .counting } else { c with run := .counting, prescale := 0 }
  | .counting => if c.counterMode then c.count else c

/-- An edge on the CLK/TRG input. -/
def CtcChannel.clkTrg (rising : Bool) (c : CtcChannel) : CtcChannel :=
  if rising = c.risingActive then c.activeEdge else c

/-! ### Programming (R562 to R566) -/

/-- The time constant word (R564): a counting channel only takes it at its next zero count (R562); one that waits for
its trigger is loaded with it and goes on waiting if D3 still says so (DESIGN CHOICE, log 21). -/
def CtcChannel.loadConstant (v : Byte) (c : CtcChannel) : CtcChannel :=
  let c1 := { c with timeConstant := v, constantNext := false }
  if c.run = .counting then c1
  else
    { c1 with down := v, prescale := 0
              run := if c.externalTrigger && !c.counterMode then .waiting else .counting }

/-- A channel control word (R563): D1 = 1 stops the channel (R566); a new slope counts as an active edge. A word with
D1 = 0 written while the channel counts takes effect at once, mode and prescaler factor too, and the prescaler goes on
from the count it has: when it does so is not in the spec (R562), DESIGN CHOICE, log 21. -/
def CtcChannel.setControl (w : Byte) (c : CtcChannel) : CtcChannel :=
  let c1 := { c with control := w, constantNext := w.getLsbD 2 }
  if w.getLsbD 1 then { c1 with run := .stopped }
  else if w.getLsbD 4 = c.risingActive then c1
  else c1.activeEdge

/-- A byte written to the channel's port that is no vector word. -/
def CtcChannel.write (v : Byte) (c : CtcChannel) : CtcChannel :=
  if c.constantNext then c.loadConstant v else if v.getLsbD 0 then c.setControl v else c

/-- The hardware reset (R566): the down-count ends and interrupts are disabled; the time constant and the
down-counter are left at drawn values (log 22). Whether a time constant that was awaited still is awaited is not in the
spec: here it is not, and the next byte is taken by its own bits, DESIGN CHOICE, log 22. -/
def CtcChannel.hardReset (constant down : Byte) (c : CtcChannel) : CtcChannel :=
  { c with control := c.control &&& 0x7F#8, constantNext := false, timeConstant := constant, down := down
           prescale := 0, run := .stopped, pending := false, underService := false }

/-! ### The chip -/

/-- The channel that CS1, CS0 select (R560). -/
def Ctc.channel (k : BitVec 2) (c : Ctc) : CtcChannel :=
  match k with
  | 0#2 => c.ch0
  | 1#2 => c.ch1
  | 2#2 => c.ch2
  | _ => c.ch3

def Ctc.setChannel (k : BitVec 2) (x : CtcChannel) (c : Ctc) : Ctc :=
  match k with
  | 0#2 => { c with ch0 := x }
  | 1#2 => { c with ch1 := x }
  | 2#2 => { c with ch2 := x }
  | _ => { c with ch3 := x }

/-- Something happens to channel k. If it makes the channel, one of 0 to 2, pulse its ZC/TO output (R561), that pulse is
an active edge at every channel of the chip whose CLK/TRG input is wired to it, the lowest-numbered first, and so on,
`fuel` channels deep (log 20). A pulse has both edges, so it is one active edge whichever the slope. -/
def Ctc.drive (fuel : Nat) (k : BitVec 2) (f : CtcChannel → CtcChannel) (c : Ctc) : Ctc :=
  match fuel with
  | 0 => c
  | fuel' + 1 =>
    let c1 := c.setChannel k (f (c.channel k))
    if k = 3#2 ∨ (c1.channel k).zeroCounts = (c.channel k).zeroCounts then c1
    else
      [0#2, 1#2, 2#2, 3#2].foldl
        (fun d j => if (d.channel j).source = some k then Ctc.drive fuel' j CtcChannel.activeEdge d else d) c1

/-- Something happens to channel k, with what it does to the others: a chain of the four channels is 4 deep. -/
def Ctc.update (k : BitVec 2) (f : CtcChannel → CtcChannel) (c : Ctc) : Ctc := c.drive 5 k f

/-- A write to the port of channel k (R562): the vector word goes to the whole chip through channel 0 (R565). -/
def Ctc.write (k : BitVec 2) (v : Byte) (c : Ctc) : Ctc :=
  if k = 0#2 ∧ c.ch0.constantNext = false ∧ v.getLsbD 0 = false then { c with vector := v &&& 0xF8#8 }
  else c.update k (CtcChannel.write v)

/-- A read of the port of channel k: the down-counter, undisturbed (R560). -/
def Ctc.read (k : BitVec 2) (c : Ctc) : Byte := (c.channel k).down

/-- The vector of channel k (R565). -/
def Ctc.vectorOf (k : BitVec 2) (c : Ctc) : Byte := c.vector.extractLsb' 3 5 ++ k ++ 0#1

/-- One period of the system clock, at channel 0 first. -/
def Ctc.tick (c : Ctc) : Ctc :=
  (((c.update 0#2 CtcChannel.tick).update 1#2 CtcChannel.tick).update 2#2 CtcChannel.tick).update 3#2 CtcChannel.tick

/-- `t` periods of the system clock. -/
def Ctc.clock (t : Nat) (c : Ctc) : Ctc :=
  match t with
  | 0 => c
  | t' + 1 => Ctc.clock t' c.tick

/-- An edge on the CLK/TRG input of channel k. -/
def Ctc.clkTrg (k : BitVec 2) (rising : Bool) (c : Ctc) : Ctc := c.update k (CtcChannel.clkTrg rising)

/-- The hardware reset (R566, R573); the nine registers it leaves open take the values `draw 0` to `draw 8`. -/
def Ctc.hardReset (draw : Nat → Byte) (c : Ctc) : Ctc :=
  { c with ch0 := c.ch0.hardReset (draw 0) (draw 1), ch1 := c.ch1.hardReset (draw 2) (draw 3)
           ch2 := c.ch2.hardReset (draw 4) (draw 5), ch3 := c.ch3.hardReset (draw 6) (draw 7)
           vector := draw 8 &&& 0xF8#8 }

end Sys2Proof.Machine
end

