-- ==== Sys2Proof/Machine/Pio.lean ====
section
/-! DEFINITION. The Z80 PIO as a platform device (60_exceptions.md R550 to R554): control words, data transfers and
the events that request an interrupt. The layouts of the control words are those R552 restores; what the spec leaves
open here is log 23. -/

namespace Sys2Proof.Machine

/-! ### Interrupt enable and the mode 3 equation (R551 to R553) -/

/-- A request: it is made only while the interrupt enable flip-flop is set (R553). -/
def PioPort.request (p : PioPort) : PioPort := { p with pending := p.pending || p.enabled }

/-- The lines the mask register leaves monitored: inputs only, an output is none (R551, R552). -/
def PioPort.monitored (p : PioPort) : Byte := p.direction &&& ~~~p.mask

/-- The monitored lines at their active level. -/
def PioPort.activeLines (p : PioPort) : Byte :=
  (if p.activeHigh then p.lines else ~~~p.lines) &&& p.monitored

/-- The logical equation of the mask and mask control registers (R551, R553); with no line monitored it is false
(log 23). -/
def PioPort.equationHolds (p : PioPort) : Bool :=
  if p.andLogic then p.activeLines == p.monitored && p.monitored != 0#8 else p.activeLines != 0#8

/-- In mode 3, request if the equation holds; `silent` is a port B whose port A is bidirectional (R553). A port that
still waits for its direction or mask word requests nothing (log 23). -/
def PioPort.testLines (silent : Bool) (p : PioPort) : PioPort :=
  if p.mode = .bitControl ∧ p.next = .command ∧ p.equationHolds = true ∧ silent = false then p.request else p

/-- An active M1: an interrupt enable that was waiting for it takes effect (R552), and the equation is tested. -/
def PioPort.m1 (silent : Bool) (p : PioPort) : PioPort :=
  if p.enableNext then
    let p1 := { p with enabled := true, enableNext := false }
    if p.enabled then p1 else p1.testLines silent
  else p

/-- Bit D7 of the interrupt control and interrupt disable words (R552): enabling waits for the next M1, disabling does
not. Whether a port that is enabled already stays so until that M1 is not in the spec: here it does, DESIGN CHOICE,
log 23. -/
def PioPort.setEnable (on : Bool) (p : PioPort) : PioPort :=
  if on then { p with enableNext := true } else { p with enabled := false, enableNext := false }

/-! ### Control words (R552) -/

def pioModeOfCode (code : BitVec 2) : PioMode :=
  match code with
  | 0#2 => .output
  | 1#2 => .input
  | 2#2 => .bidirectional
  | _ => .bitControl

/-- The mode control word: a mode 3 word is followed by the I/O register control word. Mode 2 uses only port A (R551);
what a mode 2 word written to port B does is not in the spec: here port B takes it as it stands, and then hands out
Ready and requests as an output port does, DESIGN CHOICE, log 23. -/
def PioPort.setMode (v : Byte) (p : PioPort) : PioPort :=
  { p with mode := pioModeOfCode (v.extractLsb' 6 2)
           next := if v.extractLsb' 6 2 = 3#2 then .direction else .command }

/-- The interrupt control word: D4 = 1 clears a pending interrupt and announces the mask word. -/
def PioPort.setInterruptControl (v : Byte) (p : PioPort) : PioPort :=
  let p1 := PioPort.setEnable (v.getLsbD 7) { p with andLogic := v.getLsbD 6, activeHigh := v.getLsbD 5 }
  if v.getLsbD 4 then { p1 with pending := false, next := .mask } else p1

/-- The word written is one the equation depends on: mode, direction, interrupt control or mask. -/
def PioPort.affectsEquation (v : Byte) (p : PioPort) : Bool :=
  match p.next with
  | .direction | .mask => true
  | .command => v.extractLsb' 0 4 == 0b1111#4 || v.extractLsb' 0 4 == 0b0111#4

/-- What a byte written to the port's control address sets. -/
def PioPort.takeControl (v : Byte) (p : PioPort) : PioPort :=
  match p.next with
  | .direction => { p with direction := v, next := .command }
  | .mask => { p with mask := v, next := .command }
  | .command =>
    if v.getLsbD 0 = false then { p with vector := v }
    else
      match v.extractLsb' 0 4 with
      | 0b1111#4 => p.setMode v
      | 0b0111#4 => p.setInterruptControl v
      | 0b0011#4 => p.setEnable (v.getLsbD 7)
      | _ => p

/-- A byte written to the port's control address; the equation is tested if the byte could have changed it (R553). -/
def PioPort.writeControl (silent : Bool) (v : Byte) (p : PioPort) : PioPort :=
  if p.affectsEquation v then (p.takeControl v).testLines silent else p.takeControl v

/-! ### Data (R553) -/

/-- A byte written to the port's data address; in modes 0 and 2 it makes Ready active. What a write does in mode 1 is
not in the spec: here the output register takes the byte and Ready stays, DESIGN CHOICE, log 23. -/
def PioPort.writeData (v : Byte) (p : PioPort) : PioPort :=
  { p with outputReg := v
           ready := match p.mode with
             | .output | .bidirectional => true
             | .input | .bitControl => p.ready }

/-- In mode 3 a read loads the input register from the port lines (R553, log 23). -/
def PioPort.sample (p : PioPort) : PioPort :=
  { p with inputReg := match p.mode with
      | .bitControl => p.lines
      | .output | .input | .bidirectional => p.inputReg }

/-- What a read of the port's data address returns; `free` where the spec does not say (mode 0). -/
def PioPort.dataByte (free : Byte) (p : PioPort) : Byte :=
  match p.mode with
  | .output => free
  | .input | .bidirectional => p.inputReg
  | .bitControl => (p.outputReg &&& ~~~p.direction) ||| (p.sample.inputReg &&& p.direction)

/-- A completed read: Ready is active again in mode 1, and in mode 3 the input register keeps what was read. -/
def PioPort.afterRead (p : PioPort) : PioPort :=
  { p.sample with ready := match p.mode with
      | .input => true
      | .output | .bidirectional | .bitControl => p.ready }

/-- A strobe pulse in mode 0 (the outside device has taken the byte), mode 1 (it has put one) or, on port A, mode 2
(it has taken the byte). What a strobe does in mode 3 is not in the spec: here nothing, DESIGN CHOICE, log 23. -/
def PioPort.strobe (data : Byte) (p : PioPort) : PioPort :=
  match p.mode with
  | .output | .bidirectional => PioPort.request { p with ready := false }
  | .input => PioPort.request { p with inputReg := data, ready := false }
  | .bitControl => p

/-! ### The chip -/

/-- Port B is silent in bit mode while port A is bidirectional (R553). -/
def Pio.silentB (p : Pio) : Bool := p.portA.mode == .bidirectional

/-- Strobe of port A. -/
def Pio.strobeA (data : Byte) (p : Pio) : Pio := { p with portA := p.portA.strobe data }

/-- Strobe of port B; with port A bidirectional it is the strobe of port A's input, under port B's interrupt. -/
def Pio.strobeB (data : Byte) (p : Pio) : Pio :=
  if p.silentB then
    { p with portA := { p.portA with inputReg := data }, portB := PioPort.request { p.portB with ready := false } }
  else { p with portB := p.portB.strobe data }

/-- New levels on a port's data lines. -/
def Pio.setLines (portB : Bool) (levels : Byte) (p : Pio) : Pio :=
  if portB then { p with portB := PioPort.testLines p.silentB { p.portB with lines := levels } }
  else { p with portA := PioPort.testLines false { p.portA with lines := levels } }

def Pio.m1 (p : Pio) : Pio := { p with portA := p.portA.m1 false, portB := p.portB.m1 p.silentB }

/-- A control word to port A; if it takes port A out of mode 2, port B issues interrupts in bit mode again, and its
equation is tested. -/
def Pio.controlA (v : Byte) (p : Pio) : Pio :=
  let p1 := { p with portA := p.portA.writeControl false v }
  if p.silentB && !p1.silentB then { p1 with portB := p1.portB.testLines false } else p1

/-- A write to port k: 0 A data, 1 B data, 2 A control, 3 B control (R550). Port B is to be in mode 3 while port A is in
mode 2 (R551); what it does in another mode then is not in the spec: here its data port works as that mode has it and
so moves port B's Ready, which is also port A's input handshake, DESIGN CHOICE, log 23. -/
def Pio.write (k : BitVec 2) (v : Byte) (p : Pio) : Pio :=
  match k with
  | 0#2 => { p with portA := p.portA.writeData v }
  | 1#2 => { p with portB := p.portB.writeData v }
  | 2#2 => p.controlA v
  | _ => { p with portB := p.portB.writeControl p.silentB v }

/-- A read of port k; a read of a control address is `free` (the spec gives none). -/
def Pio.read (free : Byte) (k : BitVec 2) (p : Pio) : Byte :=
  match k with
  | 0#2 => p.portA.dataByte free
  | 1#2 => p.portB.dataByte free
  | _ => free

/-- A port after the PIO's reset: its state is not in the source (R554, 93 U22), so every register and flag is drawn,
from the n-th drawn byte and the k-th drawn bit on, and the next control word is identified by its own bits. The lines
are the outside's. -/
def PioPort.drawn (n k : Nat) (p : PioPort) : PioPort :=
  { mode := pioModeOfCode (BitVec.ofBool (Config.freeBit k) ++ BitVec.ofBool (Config.freeBit (k + 1)))
    next := .command, direction := Config.freeByte n, mask := Config.freeByte (n + 1)
    andLogic := Config.freeBit (k + 2), activeHigh := Config.freeBit (k + 3)
    vector := Config.freeByte (n + 2) &&& 0xFE#8
    enabled := Config.freeBit (k + 4), enableNext := Config.freeBit (k + 5)
    outputReg := Config.freeByte (n + 3), inputReg := Config.freeByte (n + 4), ready := Config.freeBit (k + 6)
    lines := p.lines, pending := Config.freeBit (k + 7), underService := Config.freeBit (k + 8) }

/-- The PIO's reset, by M1 held active (R554, R574): ten drawn bytes from the n-th on, eighteen drawn bits likewise. -/
def Pio.reset (n : Nat) (p : Pio) : Pio :=
  { p with portA := p.portA.drawn n n, portB := p.portB.drawn (n + 5) (n + 9) }

/-- What a read of port k changes: Ready of the port, and in mode 2 Ready of port B, which is port A's input handshake.
That a read of port B, in mode 1 against R551, moves that Ready too is DESIGN CHOICE, log 23. -/
def Pio.afterRead (k : BitVec 2) (p : Pio) : Pio :=
  match k with
  | 0#2 => if p.silentB then { p with portB := { p.portB with ready := true } } else { p with portA := p.portA.afterRead }
  | 1#2 => { p with portB := p.portB.afterRead }
  | _ => p

end Sys2Proof.Machine
end

