-- ==== Sys2Proof/Machine/Devices.lean ====
section
/-! DEFINITION. The platform devices together: their ports on the I/O bus (20_memory.md R61, R70), the interrupt daisy
chain (60_exceptions.md R515 to R519), and what the clock, M1, RESET and the outer pins do to them. Wiring: log 20. -/

namespace Sys2Proof.Machine

/-! ### Ports (R550, R560, log 20) -/

def Device.base (d : Device) : Byte :=
  match d with
  | .ctc c => c.base
  | .pio p => p.base

/-- The device answers the port whose A0 to A7 are `lo`: the four ports from its base, A1 and A0 selecting. -/
def Device.claims (lo : Byte) (d : Device) : Bool := lo.extractLsb' 2 6 == d.base.extractLsb' 2 6

/-- A write to one of its ports. -/
def Device.write (lo v : Byte) (d : Device) : Device :=
  if d.claims lo then
    match d with
    | .ctc c => .ctc (c.write (lo.extractLsb' 0 2) v)
    | .pio p => .pio (p.write (lo.extractLsb' 0 2) v)
  else d

/-- The byte it puts on the bus. -/
def Device.read (free lo : Byte) (d : Device) : Byte :=
  match d with
  | .ctc c => c.read (lo.extractLsb' 0 2)
  | .pio p => p.read free (lo.extractLsb' 0 2)

/-- What the read changes in it. -/
def Device.afterRead (lo : Byte) (d : Device) : Device :=
  match d with
  | .ctc c => .ctc c
  | .pio p => .pio (p.afterRead (lo.extractLsb' 0 2))

/-- The reply of the first device that answers, and the devices after the read. -/
def readDevices (free lo : Byte) (ds : List Device) : Option (Byte × List Device) :=
  match ds with
  | [] => none
  | d :: t =>
    if d.claims lo then some (d.read free lo, d.afterRead lo :: t)
    else (readDevices free lo t).map (fun p => (p.1, d :: p.2))

/-! ### The daisy chain (R515 to R518) -/

/-- A slot of the chain as R516 sees it. -/
structure Slot where
  enabled : Bool
  pending : Bool
  underService : Bool
  vector : Byte
  deriving DecidableEq, Repr

def CtcChannel.slot (vector : Byte) (c : CtcChannel) : Slot :=
  { enabled := c.interruptEnabled, pending := c.pending, underService := c.underService, vector := vector }

def PioPort.slot (p : PioPort) : Slot :=
  { enabled := p.enabled, pending := p.pending, underService := p.underService, vector := p.vector }

/-- A device's slots, the highest priority first (R515): channels 0 to 3, or ports A and B. -/
def Device.slots (d : Device) : List Slot :=
  match d with
  | .ctc c =>
    [c.ch0.slot (c.vectorOf 0#2), c.ch1.slot (c.vectorOf 1#2), c.ch2.slot (c.vectorOf 2#2), c.ch3.slot (c.vectorOf 3#2)]
  | .pio p => [p.portA.slot, p.portB.slot]

/-- The chain: all slots, the highest priority first. -/
def chain (ds : List Device) : List Slot := ds.flatMap Device.slots

/-- IEO of a slot whose IEI is High, outside the ED window (R516). -/
def Slot.passes (x : Slot) : Bool := !x.underService && !x.pending

/-- The lowest-numbered slot with pending, enabled and IEI (R516, R517), the first slot's IEI being High. -/
def requester (xs : List Slot) : Option Nat :=
  match xs with
  | [] => none
  | x :: t =>
    if x.pending && x.enabled then some 0
    else if x.passes then (requester t).map (· + 1)
    else none

/-- The lowest-numbered slot under service (R518). -/
def inService (xs : List Slot) : Option Nat :=
  match xs with
  | [] => none
  | x :: t => if x.underService then some 0 else (inService t).map (· + 1)

/-- Set pending and under_service of one of a device's slots. -/
def Device.setSlot (k : Nat) (pending underService : Bool) (d : Device) : Device :=
  match d with
  | .ctc c =>
    let ch := BitVec.ofNat 2 k
    .ctc (c.setChannel ch { c.channel ch with pending := pending, underService := underService })
  | .pio p =>
    if k = 0 then .pio { p with portA := { p.portA with pending := pending, underService := underService } }
    else .pio { p with portB := { p.portB with pending := pending, underService := underService } }

/-- Set pending and under_service of slot k of the chain. -/
def setChainSlot (k : Nat) (pending underService : Bool) (ds : List Device) : List Device :=
  match ds with
  | [] => []
  | d :: t =>
    if k < d.slots.length then d.setSlot k pending underService :: t
    else d :: setChainSlot (k - d.slots.length) pending underService t

/-- Acknowledge by slot k (R517): pending is cleared, under_service set. -/
def ackSlot (k : Nat) (ds : List Device) : List Device := setChainSlot k false true ds

/-- RETI seen by slot k (R518): under_service is cleared, a pending request stays. -/
def releaseSlot (k : Nat) (ds : List Device) : List Device :=
  match (chain ds)[k]? with
  | some x => setChainSlot k x.pending false ds
  | none => ds

/-! ### Clock, M1, RESET and the outer pins -/

/-- `t` periods of the system clock. -/
def Device.clock (t : Nat) (d : Device) : Device :=
  match d with
  | .ctc c => .ctc (c.clock t)
  | .pio p => .pio p

/-- An active M1 (R552). -/
def Device.m1 (d : Device) : Device :=
  match d with
  | .ctc c => .ctc c
  | .pio p => .pio p.m1

/-- The CPU's RESET line: it resets a CTC whose own RESET input is wired to it, which the spec calls normal (R573);
whether it is so is DESIGN CHOICE, a field of the chip, log 20. A PIO has no reset pin, its reset is an event of its own
(R554, R574, log 24). -/
def Device.hardReset (draw : Nat → Byte) (d : Device) : Device :=
  match d with
  | .ctc c => .ctc (if c.resetWired then c.hardReset draw else c)
  | .pio p => .pio p

/-- RESET of every device; each takes nine drawn bytes (log 22). -/
def resetDevices (draw : Nat → Byte) (ds : List Device) : List Device :=
  match ds with
  | [] => []
  | d :: t => d.hardReset draw :: resetDevices (fun k => draw (k + 9)) t

/-- An event at one device's pins, if it has such a pin; n is the number of the next free value. -/
def Device.event (n : Nat) (e : DeviceEvent) (d : Device) : Device :=
  match d, e with
  | .ctc c, .clkTrg _ k rising => .ctc (c.clkTrg k rising)
  | .pio p, .strobe _ false data => .pio (p.strobeA data)
  | .pio p, .strobe _ true data => .pio (p.strobeB data)
  | .pio p, .lines _ b levels => .pio (p.setLines b levels)
  | .pio p, .pioReset _ => .pio (p.reset n)
  | .ctc c, .ctcReset _ => .ctc (c.hardReset fun k => Config.freeByte (n + k))
  | _, _ => d

def DeviceEvent.chip (e : DeviceEvent) : Nat :=
  match e with
  | .clkTrg k _ _ => k
  | .strobe k _ _ => k
  | .lines k _ _ => k
  | .pioReset k => k
  | .ctcReset k => k

/-- How many free values the event uses up. -/
def DeviceEvent.draws (e : DeviceEvent) : Nat :=
  match e with
  | .pioReset _ => 18
  | .ctcReset _ => 9
  | .clkTrg _ _ _ | .strobe _ _ _ | .lines _ _ _ => 0

/-- The event reaches its device. -/
def State.applyEvent (s : State) (e : DeviceEvent) : State :=
  { s with devices := s.devices.modify e.chip (Device.event s.draws e), draws := s.draws + e.draws }

end Sys2Proof.Machine
end

