-- ==== Sys2Proof/Machine/Ops.lean ====
section
/-! DEFINITION. The named operations: memory in canonical form, the byte and word accesses of 20_memory.md, the stack
(48_jump_call_return.md R422), opcode fetch cycles, I/O cycles, the interrupt acknowledge, the one way an interrupt
is taken (60_exceptions.md R490, R502 to R510) and the return from one. A read is two definitions, the byte it delivers
and the state it leaves; at the end of every bus cycle another bus master may act (20_memory.md R75). -/

namespace Sys2Proof.Machine

/-! ### Memory contents -/

/-- What an address that memory does not list reads as. The spec gives no contents after power-on or reset: log 1,
DESIGN CHOICE. -/
def unlistedByte : Byte := 0x00#8

/-- Canonical from address `lo` on: addresses at least `lo`, strictly rising, below 65536, no entry that reads as an
unlisted one. -/
def Memory.wfFrom (lo : Nat) (m : Memory) : Bool :=
  match m with
  | [] => true
  | (a, v) :: t => decide (lo ≤ a) && decide (a < 65536) && v != unlistedByte && Memory.wfFrom (a + 1) t

/-- The canonical form: equal memories are equal lists. -/
def Memory.wf (m : Memory) : Bool := Memory.wfFrom 0 m

def Memory.read (m : Memory) (a : Nat) : Byte :=
  match m with
  | [] => unlistedByte
  | (b, v) :: t => if a = b then v else Memory.read t a

/-- Writing the value an unlisted address reads as removes the entry. -/
def Memory.write (m : Memory) (a : Nat) (v : Byte) : Memory :=
  match m with
  | [] => if v = unlistedByte then [] else [(a, v)]
  | (b, w) :: t =>
    if a < b then (if v = unlistedByte then (b, w) :: t else (a, v) :: (b, w) :: t)
    else if a = b then (if v = unlistedByte then t else (a, v) :: t)
    else (b, w) :: Memory.write t a v

/-- Memory in which every byte is as it was in `old` or as it is in `new`; where they differ, `pick` says which. -/
def Memory.mixed (pick : Nat → Bool) (old new : Memory) : Memory :=
  (old ++ new).foldl (fun m c => if pick c.1 then m.write c.1 (new.read c.1) else m) old

/-! ### What answers a memory access (R60, parameter MEM) -/

/-- What occupies an address; `none` is RAM. -/
def kindAt (map : List Region) (a : Word) : Option RegionKind :=
  match map with
  | [] => none
  | g :: t => if g.base ≤ a.toNat ∧ a.toNat < g.base + g.size then some g.kind else kindAt t a

/-- The byte memory holds at a, RAM or ROM. -/
def State.byteAt (s : State) (a : Word) : Byte := s.mem.read a.toNat

/-- The byte a read of a finds on the bus: of a memory-mapped device its next reply, else a free value; where nothing
answers a free value (R480, log 9). -/
def State.memByte (s : State) (a : Word) : Byte :=
  match kindAt s.memMap a with
  | none | some .rom => s.byteAt a
  | some .device => s.memReplies.headD (Config.freeByte s.draws)
  | some .absent => Config.freeByte s.draws

/-- What a read of a changes outside the CPU: a device's reply is used up, or a free value is. -/
def State.answerMem (s : State) (a : Word) : State :=
  match kindAt s.memMap a with
  | none | some .rom => s
  | some .device => { s with memReplies := s.memReplies.tail, draws := s.draws + 1 }
  | some .absent => { s with draws := s.draws + 1 }

/-- What a write to a changes outside the CPU: RAM takes the byte, ROM and absent addresses ignore it (R480, 92 D25), a
device sees it, which is all the model says of the device. -/
def State.storeMem (s : State) (a : Word) (v : Byte) : State :=
  { s with mem := match kindAt s.memMap a with
      | none => s.mem.write a.toNat v
      | some _ => s.mem }

/-! ### What answers an I/O access (R61, R70, parameter IO) -/

/-- The halves of a word (R63). -/
def lowByte (v : Word) : Byte := v.extractLsb' 0 8

def highByte (v : Word) : Byte := v.extractLsb' 8 8

/-- What an I/O read finds on the bus: the reply of a device of the platform, else that of a device outside the
model, else a free value; and the devices and replies after it. -/
def State.ioReply (s : State) (port : Word) : Byte × List Device × List Byte :=
  match readDevices (Config.freeByte s.draws) (lowByte port) s.devices with
  | some (v, ds) => (v, ds, s.ioReplies)
  | none =>
    match s.ioReplies with
    | v :: t => (v, s.devices, t)
    | [] => (Config.freeByte s.draws, s.devices, [])

/-- The byte `IoRead(port)` returns. -/
def State.ioValue (s : State) (port : Word) : Byte := (s.ioReply port).1

/-- What an I/O read changes outside the CPU; one free value is used up, needed or not. Log 10. -/
def State.answerIo (s : State) (port : Word) : State :=
  { s with devices := (s.ioReply port).2.1, ioReplies := (s.ioReply port).2.2, draws := s.draws + 1 }

/-- What an I/O write changes outside the CPU. -/
def State.storeIo (s : State) (port : Word) (v : Byte) : State :=
  { s with devices := s.devices.map (Device.write (lowByte port) v) }

/-! ### Bus cycles, and what another bus master does at their end (R68, R69, R75) -/

/-- A bus cycle is seen on the bus. -/
def State.logged (s : State) (e : BusEvent) : State := { s with busLog := e :: s.busLog }

/-- One access of another bus master. -/
def State.dmaAccess (s : State) (x : DmaAccess) : State :=
  match x with
  | .memRead a => (s.answerMem a).logged (.other x (s.memByte a))
  | .memWrite a v => (s.storeMem a v).logged (.other x v)
  | .ioRead port => (s.answerIo port).logged (.other x (s.ioValue port))
  | .ioWrite port v => (s.storeIo port v).logged (.other x v)

/-- The accesses of another bus master while it has the bus, in order. -/
def State.dma (s : State) (l : List DmaAccess) : State := l.foldl State.dmaAccess s

/-- The end of a machine cycle, where another bus master may have the bus (R68, R75, DMA_GRAIN). Log 11. -/
def State.endCycle (s : State) : State :=
  match s.params.dmaGrain, s.cycleDma with
  | .machineCycle, l :: t => State.dma { s with cycleDma := t } l
  | _, _ => s

/-- No other bus master acts at the end of the coming machine cycles. -/
def State.Undisturbed (s : State) : Prop := s.params.dmaGrain = .instruction ∨ s.cycleDma = []

/-! ### The CPU's memory cycles (R63 to R66) -/

/-- `MemRead(a, 1)`: the byte. -/
def State.read8 (s : State) (a : Word) : Byte := s.memByte a

/-- `MemRead(a, 1)`: the state after the cycle. -/
def State.afterRead8 (s : State) (a : Word) : State :=
  ((s.answerMem a).logged (.memRead a (s.read8 a))).endCycle

/-- `MemWrite(a, 1, v)`. -/
def State.write8 (s : State) (a : Word) (v : Byte) : State := ((s.storeMem a v).logged (.memWrite a v)).endCycle

/-- The word at a: the low byte at a is read first, then the high byte at a + 1, modulo 65536 (R63, R64, R66). -/
def State.read16 (s : State) (a : Word) : Word := (s.afterRead8 a).read8 (a + 1#16) ++ s.read8 a

/-- The state after those two cycles. -/
def State.afterRead16 (s : State) (a : Word) : State := (s.afterRead8 a).afterRead8 (a + 1#16)

/-- A 16-bit store to nn: the low byte to nn first, then the high byte to nn + 1 (R66). -/
def State.write16 (s : State) (a v : Word) : State := (s.write8 a (lowByte v)).write8 (a + 1#16) (highByte v)

/-- A push (R30, R175, R422): the high byte to SP - 1 first, then the low byte to SP - 2 (R66). -/
def State.push16 (s : State) (v : Word) : State :=
  { (s.write8 (s.sp - 1#16) (highByte v)).write8 (s.sp - 2#16) (lowByte v) with sp := s.sp - 2#16 }

/-- The word a pop delivers (R178, R422). -/
def State.top16 (s : State) : Word := s.read16 s.sp

/-- What a pop leaves: its two reads done, SP moved up by 2. -/
def State.drop16 (s : State) : State := { s.afterRead16 s.sp with sp := s.sp + 2#16 }

/-- EX (SP),v (R194): the word on the stack, `top16`, is read and replaced, the high byte written first; SP stays. -/
def State.replaceTop (s : State) (v : Word) : State :=
  ((s.afterRead16 s.sp).write8 (s.sp + 1#16) (highByte v)).write8 s.sp (lowByte v)

/-! ### Time and opcode fetch cycles -/

/-- `t` T states pass: the CPU's count and the devices' clock inputs (R561, R600). Log 19. -/
def State.elapse (s : State) (t : Nat) : State :=
  { s with tStates := s.tStates + t, devices := s.devices.map (Device.clock t) }

/-- R after n M1 cycles: the low seven bits count, bit 7 stays (R33). -/
def refreshed (n : Nat) (r : Byte) : Byte := r.extractLsb' 7 1 ++ (r.extractLsb' 0 7 + BitVec.ofNat 7 n)

/-- An M1 cycle: R counts it (R33) and the devices see M1 (R552). -/
def State.m1Cycle (s : State) : State := { s with r := refreshed 1 s.r, devices := s.devices.map Device.m1 }

/-- An opcode fetch cycle at PC, `MemRead(PC, 1)`: the state after it, PC not yet moved (R31, R490, R530). -/
def State.afterFetch (s : State) : State :=
  ((s.answerMem s.pc).m1Cycle.logged (.opFetch s.pc (s.read8 s.pc))).endCycle

/-- n free values are used up (R12). -/
def State.drew (s : State) (n : Nat) : State := { s with draws := s.draws + n }

/-! ### The CPU's input and output cycles (R61, R70) -/

/-- The state after `IoRead(port)`, whose byte is `ioValue`. -/
def State.afterIoRead (s : State) (port : Word) : State :=
  ((s.answerIo port).logged (.ioRead port (s.ioValue port))).endCycle

/-- `IoWrite(port, v)`. -/
def State.ioWrite (s : State) (port : Word) (v : Byte) : State :=
  ((s.storeIo port v).logged (.ioWrite port v)).endCycle

/-! ### The interrupt line and its acknowledge (R516, R517, R520) -/

/-- A slot of the daisy chain drives INT. -/
def State.chainRequests (s : State) : Bool := (requester (chain s.devices)).isSome

/-- The byte `IntAck()` returns: the requesting slot's vector, else what is on the platform's bus. -/
def State.ackByte (s : State) (busByte : Byte) : Byte :=
  match requester (chain s.devices) with
  | some k => ((chain s.devices)[k]?.map Slot.vector).getD busByte
  | none => busByte

/-- What the acknowledge does to the chain: the requesting slot is under service. -/
def State.answerAck (s : State) : State :=
  { s with devices := match requester (chain s.devices) with
      | some k => ackSlot k s.devices
      | none => s.devices }

/-- The state after `IntAck()`, an M1 cycle (R62, R502). The slot that answers is chosen first; a PIO port whose interrupt
enable waits for an M1 (R552) is enabled by this one only afterwards, so that it does not answer: the spec does not
order the two, DESIGN CHOICE, log 23. -/
def State.afterIntAck (s : State) (busByte : Byte) : State :=
  (s.answerAck.m1Cycle.logged (.intAck (s.ackByte busByte))).endCycle

/-- RETI is seen on the bus: the slot under service of highest priority is released (R518). -/
def State.retiSeen (s : State) : State :=
  { s with devices := match inService (chain s.devices) with
             | some k => releaseSlot k s.devices
             | none => s.devices
           busLog := .reti :: s.busLog }

/-! ### Calls, interrupts and returns -/

/-- A restart or call (R423, R429): push PC, then jump. -/
def State.callTo (s : State) (target : Word) : State := { s.push16 s.pc with pc := target }

/-- PC is popped (R422, R425). -/
def State.returnToPopped (s : State) : State := { s.drop16 with pc := s.top16 }

/-- RETN (R428): the return, and IFF1 takes IFF2. -/
def State.returnFromNmi (s : State) : State := { s.returnToPopped with iff1 := s.iff2 }

/-- RETI (R427): the devices have seen its two bytes fetched, then the return; IFF1 only as RETI_COPIES_IFF2 says. -/
def State.returnFromInt (s : State) : State :=
  { s.retiSeen.returnToPopped with iff1 := if s.params.retiCopiesIff2 then s.iff2 else s.iff1 }

/-- Which interrupt is taken. -/
inductive InterruptKind where
  | nonMaskable
  | maskable
  deriving DecidableEq, Repr

/-- The first part of taking an interrupt: leave the Halt state, disable (NMI keeps IFF2, R34, R490; a maskable
interrupt clears both, R502), clear the NMI latch if it is an NMI; then the one M1 cycle: for an NMI an opcode fetch
whose byte is ignored (R490), for a maskable interrupt the acknowledge (R502), with the byte of a device outside the
chain. -/
def State.enterInterrupt (s : State) (kind : InterruptKind) (busByte : Byte) : State :=
  match kind with
  | .nonMaskable => State.afterFetch { s with halted := false, iff1 := false, nmiPending := false }
  | .maskable => State.afterIntAck { s with halted := false, iff1 := false, iff2 := false } busByte

/-- The NMI entry address (R490). -/
def nmiEntry : Word := 0x0066#16

/-- The mode 1 entry address (R508). -/
def mode1Entry : Word := 0x0038#16

/-- The byte is a restart instruction, what mode 0 always allows (R506, MODE0_INSTR). -/
def isRestart (v : Byte) : Bool := v &&& 0xC7#8 == 0xC7#8

/-- Where that restart goes (R506). -/
def mode0Entry (v : Byte) : Word := 0x00#8 ++ (v &&& 0x38#8)

/-- Mode 2 (R510): PC is pushed, then read from the word at {I, v}, its low byte first. -/
def State.callVector (s : State) (v : Byte) : State :=
  let s1 := s.push16 s.pc
  { s1.afterRead16 (s.i ++ v) with pc := s1.read16 (s.i ++ v) }

/-! ### Reset (R46, R570, R572, R573) -/

/-- A register set after a RESET: every bit drawn (R46), from the n-th drawn byte and the k-th drawn bit on. -/
def Bank.drawn (n k : Nat) : Bank :=
  { a := Config.freeByte n
    f := { s := Config.freeBit k, z := Config.freeBit (k + 1), h := Config.freeBit (k + 2)
           pv := Config.freeBit (k + 3), n := Config.freeBit (k + 4), c := Config.freeBit (k + 5) }
    b := Config.freeByte (n + 1), c := Config.freeByte (n + 2), d := Config.freeByte (n + 3)
    e := Config.freeByte (n + 4), h := Config.freeByte (n + 5), l := Config.freeByte (n + 6) }

/-- RESET held for a legal time and released (R570): the registers R46 calls unspecified are drawn (log 4), the
CTCs wired to it are reset with the CPU (R573, log 20), memory is untouched. -/
def State.hardReset (s : State) : State :=
  { s with
    pc := 0x0000#16, i := 0x00#8, r := 0x00#8, iff1 := false, iff2 := false, im := .mode0
    halted := false, nmiPending := false, noSample := false, busGranted := false
    regs := Bank.drawn s.draws s.draws, alt := Bank.drawn (s.draws + 7) (s.draws + 6)
    ix := Config.freeWord s.draws, iy := Config.freeWord (s.draws + 1), sp := Config.freeWord (s.draws + 2)
    devices := resetDevices (fun k => Config.freeByte (s.draws + 14 + k)) s.devices
    draws := s.draws + 14 + 9 * s.devices.length }

end Sys2Proof.Machine
end

