-- ==== Sys2Proof/Machine/Operands.lean ====
section
/-! DEFINITION. The operand forms: 8-bit registers (30_encoding.md R96), register pairs (R97 to R99), indexed
addresses (R104), relative targets (R106) and condition codes (48_jump_call_return.md R410). -/

namespace Sys2Proof.Machine

/-! ### 8-bit registers -/

def Bank.get (k : Bank) (r : Reg8) : Byte :=
  match r with
  | .b => k.b
  | .c => k.c
  | .d => k.d
  | .e => k.e
  | .h => k.h
  | .l => k.l
  | .a => k.a

def Bank.set (k : Bank) (r : Reg8) (v : Byte) : Bank :=
  match r with
  | .b => { k with b := v }
  | .c => { k with c := v }
  | .d => { k with d := v }
  | .e => { k with e := v }
  | .h => { k with h := v }
  | .l => { k with l := v }
  | .a => { k with a := v }

/-- `r8[r]`. -/
def State.getReg (s : State) (r : Reg8) : Byte := s.regs.get r

/-- `r8[r] <- v`. -/
def State.setReg (s : State) (r : Reg8) (v : Byte) : State := { s with regs := s.regs.set r v }

/-- `A <- v`. -/
def State.setA (s : State) (v : Byte) : State := { s with regs := { s.regs with a := v } }

/-- `F <- f`. -/
def State.setFlags (s : State) (f : Flags) : State := { s with regs := { s.regs with f := f } }

/-- A result and its flags, as the functions of Flags.lean give them, to A and F. -/
def State.setAF (s : State) (p : Byte × Flags) : State := { s with regs := { s.regs with a := p.1, f := p.2 } }

/-- A result and its flags to register r and F. -/
def State.setRegF (s : State) (r : Reg8) (p : Byte × Flags) : State := (s.setReg r p.1).setFlags p.2

/-- A result and its flags to address a and F. -/
def State.writeF (s : State) (a : Word) (p : Byte × Flags) : State := (s.write8 a p.1).setFlags p.2

/-! ### Pairs: the first register is the high byte (R21) -/

def State.bc (s : State) : Word := s.regs.b ++ s.regs.c

def State.de (s : State) : Word := s.regs.d ++ s.regs.e

def State.hl (s : State) : Word := s.regs.h ++ s.regs.l

def State.setBc (s : State) (v : Word) : State := { s with regs := { s.regs with b := highByte v, c := lowByte v } }

def State.setDe (s : State) (v : Word) : State := { s with regs := { s.regs with d := highByte v, e := lowByte v } }

def State.setHl (s : State) (v : Word) : State := { s with regs := { s.regs with h := highByte v, l := lowByte v } }

/-- `pair[dd]` and `pair[ss]` (R97). -/
def State.getPair (s : State) (p : Pair) : Word :=
  match p with
  | .bc => s.bc
  | .de => s.de
  | .hl => s.hl
  | .sp => s.sp

def State.setPair (s : State) (p : Pair) (v : Word) : State :=
  match p with
  | .bc => s.setBc v
  | .de => s.setDe v
  | .hl => s.setHl v
  | .sp => { s with sp := v }

/-- The addend of ADD IX (R99). -/
def State.getPairX (s : State) (p : PairX) : Word :=
  match p with
  | .bc => s.bc
  | .de => s.de
  | .ix => s.ix
  | .sp => s.sp

/-- The addend of ADD IY (R99). -/
def State.getPairY (s : State) (p : PairY) : Word :=
  match p with
  | .bc => s.bc
  | .de => s.de
  | .iy => s.iy
  | .sp => s.sp

/-! ### Addresses -/

/-- `IX + d`, d signed, modulo 65536 (R104). -/
def State.ixAddr (s : State) (d : Byte) : Word := s.ix + d.signExtend 16

/-- `IY + d`. -/
def State.iyAddr (s : State) (d : Byte) : Word := s.iy + d.signExtend 16

/-- A taken relative jump (R106, R413): PC, already past the instruction, plus the signed byte. -/
def State.jumpRelative (s : State) (e : Byte) : State := { s with pc := s.pc + e.signExtend 16 }

/-- A jump. -/
def State.jumpTo (s : State) (target : Word) : State := { s with pc := target }

/-- A repeating instruction that is not done (R205): PC goes back to its first byte. -/
def State.repeatInstr (s : State) : State := { s with pc := s.pc - 2#16 }

/-! ### Conditions -/

/-- `cond(cc)` (R410). -/
def condHolds (cc : Cond) (f : Flags) : Bool :=
  match cc with
  | .nz => !f.z
  | .z => f.z
  | .nc => !f.c
  | .c => f.c
  | .po => !f.pv
  | .pe => f.pv
  | .p => !f.s
  | .m => f.s

end Sys2Proof.Machine
end

