-- ==== Sys2Proof/Machine/Flags.lean ====
section
/-! DEFINITION. Every value and flag computation: F as a byte (10_state.md R24, R26), the functions of 43_alu8.md
(R216 to R219), DAA (R290), the 16-bit sums of 45_arith16.md and the rotates and shifts of 46_rotate_shift.md. Sums
are exact integers first and are narrowed at the end, as the rules write them. A flag the source marks X is a free
value that the meaning supplies (00_scope.md R12). -/

namespace Sys2Proof.Machine

/-! ### F as a byte -/

/-- F as PUSH AF stores it (R24); bits 5 and 3 are drawn (R26). -/
def Flags.toByte (f : Flags) (bit5 bit3 : Bool) : Byte :=
  BitVec.ofBool f.s ++ BitVec.ofBool f.z ++ BitVec.ofBool bit5 ++ BitVec.ofBool f.h ++ BitVec.ofBool bit3
    ++ BitVec.ofBool f.pv ++ BitVec.ofBool f.n ++ BitVec.ofBool f.c

/-- F as POP AF loads it: bits 5 and 3 are discarded (R26). -/
def flagsOfByte (v : Byte) : Flags :=
  { s := v.getLsbD 7, z := v.getLsbD 6, h := v.getLsbD 4, pv := v.getLsbD 2, n := v.getLsbD 1, c := v.getLsbD 0 }

/-! ### 8-bit arithmetic and logic -/

/-- The number of 1 bits. -/
def ones (v : Byte) : Nat :=
  (v.getLsbD 0).toNat + (v.getLsbD 1).toNat + (v.getLsbD 2).toNat + (v.getLsbD 3).toNat + (v.getLsbD 4).toNat
    + (v.getLsbD 5).toNat + (v.getLsbD 6).toNat + (v.getLsbD 7).toNat

/-- `parity(v)` (R218): the number of 1 bits is even. -/
def parity (v : Byte) : Bool := ones v % 2 == 0

/-- The low digit `v[3:0]` as a number. -/
def lowDigit (v : Byte) : Nat := v.toNat % 16

/-- `add8(a, b, c)` (R216). -/
def add8 (a b : Byte) (c : Bool) : Byte × Flags :=
  let t := a.toNat + b.toNat + c.toNat
  let res := BitVec.ofNat 8 t
  (res,
    { s := res.getLsbD 7
      z := res == 0#8
      h := decide (lowDigit a + lowDigit b + c.toNat > 15)
      pv := a.getLsbD 7 == b.getLsbD 7 && res.getLsbD 7 != a.getLsbD 7
      n := false
      c := decide (t > 255) })

/-- `sub8(a, b, c)` (R217). -/
def sub8 (a b : Byte) (c : Bool) : Byte × Flags :=
  let t : Int := a.toNat - b.toNat - c.toNat
  let res := BitVec.ofInt 8 t
  (res,
    { s := res.getLsbD 7
      z := res == 0#8
      h := decide ((lowDigit a : Int) - lowDigit b - c.toNat < 0)
      pv := a.getLsbD 7 != b.getLsbD 7 && res.getLsbD 7 != a.getLsbD 7
      n := true
      c := decide (t < 0) })

/-- `logic(v, h)` (R218). -/
def logic8 (v : Byte) (h : Bool) : Byte × Flags :=
  (v, { s := v.getLsbD 7, z := v == 0#8, h := h, pv := parity v, n := false, c := false })

/-- `inc8(v)` (R219); C is kept from f. -/
def inc8 (v : Byte) (f : Flags) : Byte × Flags :=
  let res := v + 1#8
  (res,
    { s := res.getLsbD 7, z := res == 0#8, h := lowDigit v == 15, pv := v == 0x7F#8, n := false, c := f.c })

/-- `dec8(v)` (R219); C is kept from f. -/
def dec8 (v : Byte) (f : Flags) : Byte × Flags :=
  let res := v - 1#8
  (res,
    { s := res.getLsbD 7, z := res == 0#8, h := lowDigit v == 0, pv := v == 0x80#8, n := true, c := f.c })

/-- The correction DAA applies (R290). -/
def daaCorrection (a : Byte) (f : Flags) : Byte :=
  (if f.h || decide (lowDigit a > 9) then 0x06#8 else 0x00#8)
    ||| (if f.c || decide (a.toNat > 0x99) then 0x60#8 else 0x00#8)

/-- DAA (R290); N is kept, C is never cleared. The algorithm and the exact H are the spec's general knowledge (92 D32),
for H it would also allow a free value: PRESUMED, log 17. -/
def daa8 (a : Byte) (f : Flags) : Byte × Flags :=
  let res := if f.n then a - daaCorrection a f else a + daaCorrection a f
  (res,
    { s := res.getLsbD 7
      z := res == 0#8
      h := if f.n then f.h && decide (lowDigit a < 6) else decide (lowDigit a > 9)
      pv := parity res
      n := f.n
      c := f.c || decide (a.toNat > 0x99) })

/-! ### Flags of moves, tests and blocks -/

/-- LD A,I and LD A,R (R148, R149): P/V takes IFF2, C is kept. -/
def interruptRegFlags (v : Byte) (iff2 : Bool) (f : Flags) : Flags :=
  { s := v.getLsbD 7, z := v == 0#8, h := false, pv := iff2, n := false, c := f.c }

/-- IN r,(C) (R452), RLD and RRD (R375): sign, zero and parity of v, C kept. -/
def parityFlags (v : Byte) (f : Flags) : Flags :=
  { s := v.getLsbD 7, z := v == 0#8, h := false, pv := parity v, n := false, c := f.c }

/-- The block transfers (R197): P/V tells whether BC, after the decrement, is not 0. -/
def transferFlags (bc : Word) (f : Flags) : Flags := { f with h := false, n := false, pv := bc != 0#16 }

/-- The block searches (R201): a comparison that keeps C, and P/V as for a transfer. -/
def searchFlags (a m : Byte) (bc : Word) (f : Flags) : Flags :=
  { (sub8 a m false).2 with pv := bc != 0#16, c := f.c }

/-- The block I/O instructions (R453): Z and N are defined by B after the decrement, the rest is drawn. -/
def blockIoFlags (b : Byte) (s h pv c : Bool) : Flags := { s := s, z := b == 0#8, h := h, pv := pv, n := true, c := c }

/-- BIT (R390): Z is the complement of the tested bit, S and P/V are drawn, C is kept. -/
def bitFlags (bit : Bool) (s pv : Bool) (f : Flags) : Flags :=
  { s := s, z := !bit, h := true, pv := pv, n := false, c := f.c }

/-! ### 16-bit arithmetic; h is drawn -/

/-- ADD HL,ss, ADD IX,pp, ADD IY,rr (R316, R319, R320): only H, N and C are written. -/
def add16 (a b : Word) (h : Bool) (f : Flags) : Word × Flags :=
  let t := a.toNat + b.toNat
  (BitVec.ofNat 16 t, { f with h := h, n := false, c := decide (t > 65535) })

/-- ADC HL,ss (R317). -/
def adc16 (a b : Word) (c h : Bool) : Word × Flags :=
  let t := a.toNat + b.toNat + c.toNat
  let res := BitVec.ofNat 16 t
  (res,
    { s := res.getLsbD 15
      z := res == 0#16
      h := h
      pv := a.getLsbD 15 == b.getLsbD 15 && res.getLsbD 15 != a.getLsbD 15
      n := false
      c := decide (t > 65535) })

/-- SBC HL,ss (R318). -/
def sbc16 (a b : Word) (c h : Bool) : Word × Flags :=
  let t : Int := a.toNat - b.toNat - c.toNat
  let res := BitVec.ofInt 16 t
  (res,
    { s := res.getLsbD 15
      z := res == 0#16
      h := h
      pv := a.getLsbD 15 != b.getLsbD 15 && res.getLsbD 15 != a.getLsbD 15
      n := true
      c := decide (t < 0) })

/-! ### Rotates and shifts: the result and the bit shifted out (R336 to R342) -/

def rlc8 (v : Byte) : Byte × Bool := (v.extractLsb' 0 7 ++ v.extractLsb' 7 1, v.getLsbD 7)

def rl8 (c : Bool) (v : Byte) : Byte × Bool := (v.extractLsb' 0 7 ++ BitVec.ofBool c, v.getLsbD 7)

def rrc8 (v : Byte) : Byte × Bool := (v.extractLsb' 0 1 ++ v.extractLsb' 1 7, v.getLsbD 0)

def rr8 (c : Bool) (v : Byte) : Byte × Bool := (BitVec.ofBool c ++ v.extractLsb' 1 7, v.getLsbD 0)

def sla8 (v : Byte) : Byte × Bool := (v.extractLsb' 0 7 ++ 0#1, v.getLsbD 7)

def sra8 (v : Byte) : Byte × Bool := (v.extractLsb' 7 1 ++ v.extractLsb' 1 7, v.getLsbD 0)

def srl8 (v : Byte) : Byte × Bool := (0#1 ++ v.extractLsb' 1 7, v.getLsbD 0)

/-- The seven location operations: all six flags (R342). -/
def shifted (p : Byte × Bool) : Byte × Flags :=
  (p.1, { s := p.1.getLsbD 7, z := p.1 == 0#8, h := false, pv := parity p.1, n := false, c := p.2 })

/-- The four accumulator rotates: only H, N and C (R335). -/
def rotatedA (p : Byte × Bool) (f : Flags) : Byte × Flags := (p.1, { f with h := false, n := false, c := p.2 })

/-! ### Bits (47_bit.md) -/

/-- The bit `1 << b`. -/
def bitMask (b : BitVec 3) : Byte := 1#8 <<< b.toNat

/-- `v[b]`. -/
def testBit8 (b : BitVec 3) (v : Byte) : Bool := v.getLsbD b.toNat

/-- `v OR (1 << b)` (R395). -/
def setBit8 (b : BitVec 3) (v : Byte) : Byte := v ||| bitMask b

/-- `v AND NOT (1 << b)` (R399). -/
def resetBit8 (b : BitVec 3) (v : Byte) : Byte := v &&& ~~~(bitMask b)

end Sys2Proof.Machine
end

