-- ==== Sys2Proof/Machine/Alu8.lean ====
section
/-! DEFINITION. The 8-bit arithmetic and logical group (43_alu8.md R215 to R267). -/

namespace Sys2Proof.Machine

/-- ADD A,s (R220). -/
def State.addA (s : State) (v : Byte) : State := s.setAF (add8 s.regs.a v false)

/-- ADC A,s (R225). -/
def State.adcA (s : State) (v : Byte) : State := s.setAF (add8 s.regs.a v s.regs.f.c)

/-- SUB s (R230). -/
def State.subA (s : State) (v : Byte) : State := s.setAF (sub8 s.regs.a v false)

/-- SBC A,s (R235). -/
def State.sbcA (s : State) (v : Byte) : State := s.setAF (sub8 s.regs.a v s.regs.f.c)

/-- AND s (R240). -/
def State.andA (s : State) (v : Byte) : State := s.setAF (logic8 (s.regs.a &&& v) true)

/-- OR s (R245). -/
def State.orA (s : State) (v : Byte) : State := s.setAF (logic8 (s.regs.a ||| v) false)

/-- XOR s (R250). -/
def State.xorA (s : State) (v : Byte) : State := s.setAF (logic8 (s.regs.a ^^^ v) false)

/-- CP s (R255): the flags of SUB s, no register. -/
def State.cpA (s : State) (v : Byte) : State := s.setFlags (sub8 s.regs.a v false).2

/-- INC of the byte at a (R261): one read, one write. -/
def State.incAt (s : State) (a : Word) : State := (s.afterRead8 a).writeF a (inc8 (s.read8 a) s.regs.f)

/-- DEC of the byte at a (R265). -/
def State.decAt (s : State) (a : Word) : State := (s.afterRead8 a).writeF a (dec8 (s.read8 a) s.regs.f)

/-- `ADD A,r` (R220). -/
def execAddReg (r : Reg8) (s : State) : Result :=
  .next (s.addA (s.getReg r))

/-- `ADD A,n` (R221). -/
def execAddImm (n : Byte) (s : State) : Result :=
  .next (s.addA n)

/-- `ADD A,(HL)` (R222). -/
def execAddMemHl (s : State) : Result :=
  .next ((s.afterRead8 s.hl).addA (s.read8 s.hl))

/-- `ADD A,(IX+d)` (R223). -/
def execAddMemIx (d : Byte) (s : State) : Result :=
  .next ((s.afterRead8 (s.ixAddr d)).addA (s.read8 (s.ixAddr d)))

/-- `ADD A,(IY+d)` (R224). -/
def execAddMemIy (d : Byte) (s : State) : Result :=
  .next ((s.afterRead8 (s.iyAddr d)).addA (s.read8 (s.iyAddr d)))

/-- `ADC A,r` (R225). -/
def execAdcReg (r : Reg8) (s : State) : Result :=
  .next (s.adcA (s.getReg r))

/-- `ADC A,n` (R226). -/
def execAdcImm (n : Byte) (s : State) : Result :=
  .next (s.adcA n)

/-- `ADC A,(HL)` (R227). -/
def execAdcMemHl (s : State) : Result :=
  .next ((s.afterRead8 s.hl).adcA (s.read8 s.hl))

/-- `ADC A,(IX+d)` (R228). -/
def execAdcMemIx (d : Byte) (s : State) : Result :=
  .next ((s.afterRead8 (s.ixAddr d)).adcA (s.read8 (s.ixAddr d)))

/-- `ADC A,(IY+d)` (R229). -/
def execAdcMemIy (d : Byte) (s : State) : Result :=
  .next ((s.afterRead8 (s.iyAddr d)).adcA (s.read8 (s.iyAddr d)))

/-- `SUB r` (R230). -/
def execSubReg (r : Reg8) (s : State) : Result :=
  .next (s.subA (s.getReg r))

/-- `SUB n` (R231). -/
def execSubImm (n : Byte) (s : State) : Result :=
  .next (s.subA n)

/-- `SUB (HL)` (R232). -/
def execSubMemHl (s : State) : Result :=
  .next ((s.afterRead8 s.hl).subA (s.read8 s.hl))

/-- `SUB (IX+d)` (R233). -/
def execSubMemIx (d : Byte) (s : State) : Result :=
  .next ((s.afterRead8 (s.ixAddr d)).subA (s.read8 (s.ixAddr d)))

/-- `SUB (IY+d)` (R234). -/
def execSubMemIy (d : Byte) (s : State) : Result :=
  .next ((s.afterRead8 (s.iyAddr d)).subA (s.read8 (s.iyAddr d)))

/-- `SBC A,r` (R235). -/
def execSbcReg (r : Reg8) (s : State) : Result :=
  .next (s.sbcA (s.getReg r))

/-- `SBC A,n` (R236). -/
def execSbcImm (n : Byte) (s : State) : Result :=
  .next (s.sbcA n)

/-- `SBC A,(HL)` (R237). -/
def execSbcMemHl (s : State) : Result :=
  .next ((s.afterRead8 s.hl).sbcA (s.read8 s.hl))

/-- `SBC A,(IX+d)` (R238). -/
def execSbcMemIx (d : Byte) (s : State) : Result :=
  .next ((s.afterRead8 (s.ixAddr d)).sbcA (s.read8 (s.ixAddr d)))

/-- `SBC A,(IY+d)` (R239). -/
def execSbcMemIy (d : Byte) (s : State) : Result :=
  .next ((s.afterRead8 (s.iyAddr d)).sbcA (s.read8 (s.iyAddr d)))

/-- `AND r` (R240). -/
def execAndReg (r : Reg8) (s : State) : Result :=
  .next (s.andA (s.getReg r))

/-- `AND n` (R241). -/
def execAndImm (n : Byte) (s : State) : Result :=
  .next (s.andA n)

/-- `AND (HL)` (R242). -/
def execAndMemHl (s : State) : Result :=
  .next ((s.afterRead8 s.hl).andA (s.read8 s.hl))

/-- `AND (IX+d)` (R243). -/
def execAndMemIx (d : Byte) (s : State) : Result :=
  .next ((s.afterRead8 (s.ixAddr d)).andA (s.read8 (s.ixAddr d)))

/-- `AND (IY+d)` (R244). -/
def execAndMemIy (d : Byte) (s : State) : Result :=
  .next ((s.afterRead8 (s.iyAddr d)).andA (s.read8 (s.iyAddr d)))

/-- `OR r` (R245). -/
def execOrReg (r : Reg8) (s : State) : Result :=
  .next (s.orA (s.getReg r))

/-- `OR n` (R246). -/
def execOrImm (n : Byte) (s : State) : Result :=
  .next (s.orA n)

/-- `OR (HL)` (R247). -/
def execOrMemHl (s : State) : Result :=
  .next ((s.afterRead8 s.hl).orA (s.read8 s.hl))

/-- `OR (IX+d)` (R248). -/
def execOrMemIx (d : Byte) (s : State) : Result :=
  .next ((s.afterRead8 (s.ixAddr d)).orA (s.read8 (s.ixAddr d)))

/-- `OR (IY+d)` (R249). -/
def execOrMemIy (d : Byte) (s : State) : Result :=
  .next ((s.afterRead8 (s.iyAddr d)).orA (s.read8 (s.iyAddr d)))

/-- `XOR r` (R250). -/
def execXorReg (r : Reg8) (s : State) : Result :=
  .next (s.xorA (s.getReg r))

/-- `XOR n` (R251). -/
def execXorImm (n : Byte) (s : State) : Result :=
  .next (s.xorA n)

/-- `XOR (HL)` (R252). -/
def execXorMemHl (s : State) : Result :=
  .next ((s.afterRead8 s.hl).xorA (s.read8 s.hl))

/-- `XOR (IX+d)` (R253). -/
def execXorMemIx (d : Byte) (s : State) : Result :=
  .next ((s.afterRead8 (s.ixAddr d)).xorA (s.read8 (s.ixAddr d)))

/-- `XOR (IY+d)` (R254). -/
def execXorMemIy (d : Byte) (s : State) : Result :=
  .next ((s.afterRead8 (s.iyAddr d)).xorA (s.read8 (s.iyAddr d)))

/-- `CP r` (R255). -/
def execCpReg (r : Reg8) (s : State) : Result :=
  .next (s.cpA (s.getReg r))

/-- `CP n` (R256). -/
def execCpImm (n : Byte) (s : State) : Result :=
  .next (s.cpA n)

/-- `CP (HL)` (R257). -/
def execCpMemHl (s : State) : Result :=
  .next ((s.afterRead8 s.hl).cpA (s.read8 s.hl))

/-- `CP (IX+d)` (R258). -/
def execCpMemIx (d : Byte) (s : State) : Result :=
  .next ((s.afterRead8 (s.ixAddr d)).cpA (s.read8 (s.ixAddr d)))

/-- `CP (IY+d)` (R259). -/
def execCpMemIy (d : Byte) (s : State) : Result :=
  .next ((s.afterRead8 (s.iyAddr d)).cpA (s.read8 (s.iyAddr d)))

/-- `INC r` (R260). -/
def execIncReg (r : Reg8) (s : State) : Result :=
  .next (s.setRegF r (inc8 (s.getReg r) s.regs.f))

/-- `INC (HL)` (R261). -/
def execIncMemHl (s : State) : Result :=
  .next (s.incAt s.hl)

/-- `INC (IX+d)` (R262). -/
def execIncMemIx (d : Byte) (s : State) : Result :=
  .next (s.incAt (s.ixAddr d))

/-- `INC (IY+d)` (R263). -/
def execIncMemIy (d : Byte) (s : State) : Result :=
  .next (s.incAt (s.iyAddr d))

/-- `DEC r` (R264). -/
def execDecReg (r : Reg8) (s : State) : Result :=
  .next (s.setRegF r (dec8 (s.getReg r) s.regs.f))

/-- `DEC (HL)` (R265). -/
def execDecMemHl (s : State) : Result :=
  .next (s.decAt s.hl)

/-- `DEC (IX+d)` (R266). -/
def execDecMemIx (d : Byte) (s : State) : Result :=
  .next (s.decAt (s.ixAddr d))

/-- `DEC (IY+d)` (R267). -/
def execDecMemIy (d : Byte) (s : State) : Result :=
  .next (s.decAt (s.iyAddr d))

end Sys2Proof.Machine
end

