-- ==== Sys2Proof/Machine/Arith16.lean ====
section
/-! DEFINITION. The 16-bit arithmetic group (45_arith16.md R315 to R326). H is drawn (log 5). -/

namespace Sys2Proof.Machine

/-- A 16-bit result and its flags to HL and F. -/
def State.setHlF (s : State) (p : Word × Flags) : State := (s.setHl p.1).setFlags p.2

/-- To IX and F. -/
def State.setIxF (s : State) (p : Word × Flags) : State := { s with ix := p.1, regs := { s.regs with f := p.2 } }

/-- To IY and F. -/
def State.setIyF (s : State) (p : Word × Flags) : State := { s with iy := p.1, regs := { s.regs with f := p.2 } }

/-- `ADD HL,ss` (R316). -/
def execAddHlPair (ss : Pair) (s : State) : Result :=
  .next ((s.drew 1).setHlF (add16 s.hl (s.getPair ss) (Config.freeBit s.draws) s.regs.f))

/-- `ADC HL,ss` (R317). -/
def execAdcHlPair (ss : Pair) (s : State) : Result :=
  .next ((s.drew 1).setHlF (adc16 s.hl (s.getPair ss) s.regs.f.c (Config.freeBit s.draws)))

/-- `SBC HL,ss` (R318). -/
def execSbcHlPair (ss : Pair) (s : State) : Result :=
  .next ((s.drew 1).setHlF (sbc16 s.hl (s.getPair ss) s.regs.f.c (Config.freeBit s.draws)))

/-- `ADD IX,pp` (R319). -/
def execAddIxPair (pp : PairX) (s : State) : Result :=
  .next ((s.drew 1).setIxF (add16 s.ix (s.getPairX pp) (Config.freeBit s.draws) s.regs.f))

/-- `ADD IY,rr` (R320). -/
def execAddIyPair (rr : PairY) (s : State) : Result :=
  .next ((s.drew 1).setIyF (add16 s.iy (s.getPairY rr) (Config.freeBit s.draws) s.regs.f))

/-- `INC ss` (R321). -/
def execIncPair (ss : Pair) (s : State) : Result :=
  .next (s.setPair ss (s.getPair ss + 1#16))

/-- `INC IX` (R322). -/
def execIncIx (s : State) : Result :=
  .next { s with ix := s.ix + 1#16 }

/-- `INC IY` (R323). -/
def execIncIy (s : State) : Result :=
  .next { s with iy := s.iy + 1#16 }

/-- `DEC ss` (R324). -/
def execDecPair (ss : Pair) (s : State) : Result :=
  .next (s.setPair ss (s.getPair ss - 1#16))

/-- `DEC IX` (R325). -/
def execDecIx (s : State) : Result :=
  .next { s with ix := s.ix - 1#16 }

/-- `DEC IY` (R326). -/
def execDecIy (s : State) : Result :=
  .next { s with iy := s.iy - 1#16 }

end Sys2Proof.Machine
end

