-- ==== Sys2Proof/Machine/Bit.lean ====
section
/-! DEFINITION. The bit set, reset and test group (47_bit.md R390 to R402). -/

namespace Sys2Proof.Machine

/-- BIT (R390): S and P/V are drawn (log 5). -/
def State.bitTest (s : State) (bit : Bool) : State :=
  (s.drew 2).setFlags (bitFlags bit (Config.freeBit s.draws) (Config.freeBit (s.draws + 1)) s.regs.f)

/-- SET and RES of the byte at a: one read, one write (R66). -/
def State.changeAt (s : State) (a : Word) (f : Byte → Byte) : State := (s.afterRead8 a).write8 a (f (s.read8 a))

/-- `BIT b,r` (R391). -/
def execBitReg (b : BitVec 3) (r : Reg8) (s : State) : Result :=
  .next (s.bitTest (testBit8 b (s.getReg r)))

/-- `BIT b,(HL)` (R392). -/
def execBitMemHl (b : BitVec 3) (s : State) : Result :=
  .next ((s.afterRead8 s.hl).bitTest (testBit8 b (s.read8 s.hl)))

/-- `BIT b,(IX+d)` (R393). -/
def execBitMemIx (b : BitVec 3) (d : Byte) (s : State) : Result :=
  .next ((s.afterRead8 (s.ixAddr d)).bitTest (testBit8 b (s.read8 (s.ixAddr d))))

/-- `BIT b,(IY+d)` (R394). -/
def execBitMemIy (b : BitVec 3) (d : Byte) (s : State) : Result :=
  .next ((s.afterRead8 (s.iyAddr d)).bitTest (testBit8 b (s.read8 (s.iyAddr d))))

/-- `SET b,r` (R395). -/
def execSetReg (b : BitVec 3) (r : Reg8) (s : State) : Result :=
  .next (s.setReg r (setBit8 b (s.getReg r)))

/-- `SET b,(HL)` (R396). -/
def execSetMemHl (b : BitVec 3) (s : State) : Result :=
  .next (s.changeAt s.hl (setBit8 b))

/-- `SET b,(IX+d)` (R397). -/
def execSetMemIx (b : BitVec 3) (d : Byte) (s : State) : Result :=
  .next (s.changeAt (s.ixAddr d) (setBit8 b))

/-- `SET b,(IY+d)` (R398). -/
def execSetMemIy (b : BitVec 3) (d : Byte) (s : State) : Result :=
  .next (s.changeAt (s.iyAddr d) (setBit8 b))

/-- `RES b,r` (R399). -/
def execResReg (b : BitVec 3) (r : Reg8) (s : State) : Result :=
  .next (s.setReg r (resetBit8 b (s.getReg r)))

/-- `RES b,(HL)` (R400). -/
def execResMemHl (b : BitVec 3) (s : State) : Result :=
  .next (s.changeAt s.hl (resetBit8 b))

/-- `RES b,(IX+d)` (R401). -/
def execResMemIx (b : BitVec 3) (d : Byte) (s : State) : Result :=
  .next (s.changeAt (s.ixAddr d) (resetBit8 b))

/-- `RES b,(IY+d)` (R402). -/
def execResMemIy (b : BitVec 3) (d : Byte) (s : State) : Result :=
  .next (s.changeAt (s.iyAddr d) (resetBit8 b))

end Sys2Proof.Machine
end

