-- ==== Sys2Proof/Machine/Control.lean ====
section
/-! DEFINITION. The general-purpose arithmetic and CPU control groups (44_general_cpu_control.md R290 to R302). -/

namespace Sys2Proof.Machine

/-- `DAA` (R290). -/
def execDaa (s : State) : Result :=
  .next (s.setAF (daa8 s.regs.a s.regs.f))

/-- `CPL` (R291). -/
def execCpl (s : State) : Result :=
  .next (s.setAF (s.regs.a ^^^ 0xFF#8, { s.regs.f with h := true, n := true }))

/-- `NEG` (R292). -/
def execNeg (s : State) : Result :=
  .next (s.setAF (sub8 0x00#8 s.regs.a false))

/-- `CCF` (R293). -/
def execCcf (s : State) : Result :=
  .next ((s.drew 1).setFlags { s.regs.f with c := !s.regs.f.c, h := Config.freeBit s.draws, n := false })

/-- `SCF` (R294). -/
def execScf (s : State) : Result :=
  .next (s.setFlags { s.regs.f with c := true, h := false, n := false })

/-- `NOP` (R295). -/
def execNop (s : State) : Result :=
  .next s

/-- `HALT` (R296). -/
def execHalt (s : State) : Result :=
  .next { s with halted := true }

/-- `DI` (R297). -/
def execDi (s : State) : Result :=
  .next { s with iff1 := false, iff2 := false, noSample := true }

/-- `EI` (R298). -/
def execEi (s : State) : Result :=
  .next { s with iff1 := true, iff2 := true, noSample := true }

/-- `IM 0` (R299). -/
def execIm0 (s : State) : Result :=
  .next { s with im := .mode0 }

/-- `IM 1` (R300). -/
def execIm1 (s : State) : Result :=
  .next { s with im := .mode1 }

/-- `IM 2` (R301). -/
def execIm2 (s : State) : Result :=
  .next { s with im := .mode2 }

end Sys2Proof.Machine
end

