-- ==== Sys2Proof/Machine/Exchange.lean ====
section
/-! DEFINITION. The exchange, block transfer and block search groups (42_exchange_block.md R190 to R205).
One execution of a repeating instruction is one iteration (R205). -/

namespace Sys2Proof.Machine

/-- A pointer moved up or down by one. -/
def moved (up : Bool) (v : Word) : Word := if up then v + 1#16 else v - 1#16

/-- One block transfer (R197, R199): the byte at HL goes to DE, the pointers move, BC counts down. -/
def State.transferStep (s : State) (up : Bool) : State :=
  let s1 := (s.afterRead8 s.hl).write8 s.de (s.read8 s.hl)
  let s2 := ((s1.setDe (moved up s.de)).setHl (moved up s.hl)).setBc (s.bc - 1#16)
  s2.setFlags (transferFlags (s.bc - 1#16) s.regs.f)

/-- One block comparison (R201, R203): A with the byte at HL; HL moves, BC counts down. -/
def State.searchStep (s : State) (up : Bool) : State :=
  let s1 := ((s.afterRead8 s.hl).setHl (moved up s.hl)).setBc (s.bc - 1#16)
  s1.setFlags (searchFlags s.regs.a (s.read8 s.hl) (s.bc - 1#16) s.regs.f)

/-- LDIR, LDDR: repeat until BC = 0 (R198). -/
def State.repeatTransfer (s : State) : State := if s.bc = 0#16 then s else s.repeatInstr

/-- CPIR, CPDR: repeat until BC = 0 or the bytes are equal (R202). -/
def State.repeatSearch (s : State) : State := if s.bc = 0#16 ∨ s.regs.f.z = true then s else s.repeatInstr

/-- `EX DE,HL` (R191). -/
def execExDeHl (s : State) : Result :=
  .next ((s.setDe s.hl).setHl s.de)

/-- `EX AF,AF'` (R192). -/
def execExAfAf (s : State) : Result :=
  .next
    { s with
      regs := { s.regs with a := s.alt.a, f := s.alt.f }
      alt := { s.alt with a := s.regs.a, f := s.regs.f } }

/-- `EXX` (R193). -/
def execExx (s : State) : Result :=
  .next
    { s with
      regs := { s.alt with a := s.regs.a, f := s.regs.f }
      alt := { s.regs with a := s.alt.a, f := s.alt.f } }

/-- `EX (SP),HL` (R194). -/
def execExMemSpHl (s : State) : Result :=
  .next ((s.replaceTop s.hl).setHl s.top16)

/-- `EX (SP),IX` (R195). -/
def execExMemSpIx (s : State) : Result :=
  .next { s.replaceTop s.ix with ix := s.top16 }

/-- `EX (SP),IY` (R196). -/
def execExMemSpIy (s : State) : Result :=
  .next { s.replaceTop s.iy with iy := s.top16 }

/-- `LDI` (R197). -/
def execLdi (s : State) : Result :=
  .next (s.transferStep true)

/-- `LDIR` (R198). -/
def execLdir (s : State) : Result :=
  .next (s.transferStep true).repeatTransfer

/-- `LDD` (R199). -/
def execLdd (s : State) : Result :=
  .next (s.transferStep false)

/-- `LDDR` (R200). -/
def execLddr (s : State) : Result :=
  .next (s.transferStep false).repeatTransfer

/-- `CPI` (R201). -/
def execCpi (s : State) : Result :=
  .next (s.searchStep true)

/-- `CPIR` (R202). -/
def execCpir (s : State) : Result :=
  .next (s.searchStep true).repeatSearch

/-- `CPD` (R203). -/
def execCpd (s : State) : Result :=
  .next (s.searchStep false)

/-- `CPDR` (R204). -/
def execCpdr (s : State) : Result :=
  .next (s.searchStep false).repeatSearch

end Sys2Proof.Machine
end

