-- ==== Sys2Proof/Machine/InOut.lean ====
section
/-! DEFINITION. The input and output group (49_io.md R450 to R462). The port is the 16-bit value on the address
bus: {A, n} or {B, C}. -/

namespace Sys2Proof.Machine

/-- IN r,(C) (R452): the flags are those of the byte read; code 110 stores it nowhere. -/
def State.inputTo (s : State) (t : InDest) : State :=
  let v := s.ioValue s.bc
  let s1 := (s.afterIoRead s.bc).setFlags (parityFlags v s.regs.f)
  match t with
  | .reg r => s1.setReg r v
  | .flagsOnly => s1

/-- HL moved up or down by one, B counted down, the flags of a block I/O instruction: four of them drawn (R453). -/
def State.blockIoDone (s : State) (up : Bool) : State :=
  let s1 := (s.setHl (if up then s.hl + 1#16 else s.hl - 1#16)).setReg .b (s.regs.b - 1#8)
  (s1.drew 4).setFlags (blockIoFlags (s.regs.b - 1#8) (Config.freeBit s.draws) (Config.freeBit (s.draws + 1))
    (Config.freeBit (s.draws + 2)) (Config.freeBit (s.draws + 3)))

/-- One block input (R453, R455): the port is {B, C} before the decrement. -/
def State.inputStep (s : State) (up : Bool) : State :=
  ((s.afterIoRead s.bc).write8 s.hl (s.ioValue s.bc)).blockIoDone up

/-- The port of a block output (R450): B after the decrement, or before it if BLOCK_OUT_B_PHASE says so. -/
def State.blockOutPort (s : State) : Word :=
  (if s.params.blockOutBAfter then s.regs.b - 1#8 else s.regs.b) ++ s.regs.c

/-- One block output (R459, R461). -/
def State.outputStep (s : State) (up : Bool) : State :=
  ((s.afterRead8 s.hl).ioWrite s.blockOutPort (s.read8 s.hl)).blockIoDone up

/-- INIR, INDR, OTIR, OTDR: repeat until B = 0 (R454). -/
def State.repeatIo (s : State) : State := if s.regs.b = 0#8 then s else s.repeatInstr

/-- `IN A,(n)` (R451). -/
def execInAImm (n : Byte) (s : State) : Result :=
  .next ((s.afterIoRead (s.regs.a ++ n)).setA (s.ioValue (s.regs.a ++ n)))

/-- `IN r,(C)` (R452). -/
def execInRegC (t : InDest) (s : State) : Result :=
  .next (s.inputTo t)

/-- `INI` (R453). -/
def execIni (s : State) : Result :=
  .next (s.inputStep true)

/-- `INIR` (R454). -/
def execInir (s : State) : Result :=
  .next (s.inputStep true).repeatIo

/-- `IND` (R455). -/
def execInd (s : State) : Result :=
  .next (s.inputStep false)

/-- `INDR` (R456). -/
def execIndr (s : State) : Result :=
  .next (s.inputStep false).repeatIo

/-- `OUT (n),A` (R457). -/
def execOutImmA (n : Byte) (s : State) : Result :=
  .next (s.ioWrite (s.regs.a ++ n) s.regs.a)

/-- `OUT (C),r` (R458). -/
def execOutCReg (r : Reg8) (s : State) : Result :=
  .next (s.ioWrite s.bc (s.getReg r))

/-- `OUTI` (R459). -/
def execOuti (s : State) : Result :=
  .next (s.outputStep true)

/-- `OTIR` (R460). -/
def execOtir (s : State) : Result :=
  .next (s.outputStep true).repeatIo

/-- `OUTD` (R461). -/
def execOutd (s : State) : Result :=
  .next (s.outputStep false)

/-- `OTDR` (R462). -/
def execOtdr (s : State) : Result :=
  .next (s.outputStep false).repeatIo

end Sys2Proof.Machine
end

