-- ==== Sys2Proof/Machine/Jump.lean ====
section
/-! DEFINITION. The jump, call and return groups (48_jump_call_return.md R410 to R429). No flag is written. PC
is already past the instruction when a meaning runs. -/

namespace Sys2Proof.Machine

/-- `JP nn` (R411). -/
def execJp (nn : Word) (s : State) : Result :=
  .next (s.jumpTo nn)

/-- `JP cc,nn` (R412). -/
def execJpCond (cc : Cond) (nn : Word) (s : State) : Result :=
  .next (if condHolds cc s.regs.f then s.jumpTo nn else s)

/-- `JR e` (R413). -/
def execJr (e : Byte) (s : State) : Result :=
  .next (s.jumpRelative e)

/-- `JR C,e` (R414). -/
def execJrC (e : Byte) (s : State) : Result :=
  .next (if condHolds .c s.regs.f then s.jumpRelative e else s)

/-- `JR NC,e` (R415). -/
def execJrNc (e : Byte) (s : State) : Result :=
  .next (if condHolds .nc s.regs.f then s.jumpRelative e else s)

/-- `JR Z,e` (R416). -/
def execJrZ (e : Byte) (s : State) : Result :=
  .next (if condHolds .z s.regs.f then s.jumpRelative e else s)

/-- `JR NZ,e` (R417). -/
def execJrNz (e : Byte) (s : State) : Result :=
  .next (if condHolds .nz s.regs.f then s.jumpRelative e else s)

/-- `JP (HL)` (R418). -/
def execJpHl (s : State) : Result :=
  .next (s.jumpTo s.hl)

/-- `JP (IX)` (R419). -/
def execJpIx (s : State) : Result :=
  .next (s.jumpTo s.ix)

/-- `JP (IY)` (R420). -/
def execJpIy (s : State) : Result :=
  .next (s.jumpTo s.iy)

/-- `DJNZ e` (R421). -/
def execDjnz (e : Byte) (s : State) : Result :=
  .next (if s.regs.b - 1#8 = 0#8 then s.setReg .b (s.regs.b - 1#8) else (s.setReg .b (s.regs.b - 1#8)).jumpRelative e)

/-- `CALL nn` (R423). -/
def execCall (nn : Word) (s : State) : Result :=
  .next (s.callTo nn)

/-- `CALL cc,nn` (R424). -/
def execCallCond (cc : Cond) (nn : Word) (s : State) : Result :=
  .next (if condHolds cc s.regs.f then s.callTo nn else s)

/-- `RET` (R425). -/
def execRet (s : State) : Result :=
  .next s.returnToPopped

/-- `RET cc` (R426). -/
def execRetCond (cc : Cond) (s : State) : Result :=
  .next (if condHolds cc s.regs.f then s.returnToPopped else s)

/-- `RETI` (R427). -/
def execReti (s : State) : Result :=
  .next s.returnFromInt

/-- `RETN` (R428). -/
def execRetn (s : State) : Result :=
  .next s.returnFromNmi

/-- `RST p` (R429). -/
def execRst (p : Byte) (s : State) : Result :=
  .next (s.callTo (0x00#8 ++ p))

end Sys2Proof.Machine
end

