-- ==== Sys2Proof/Machine/Load16.lean ====
section
/-! DEFINITION. The 16-bit load group (41_load16.md R160 to R180): no flag is written, but POP AF loads F. -/

namespace Sys2Proof.Machine

/-- PUSH qq (R175); bits 5 and 3 of a pushed F are drawn (R26). -/
def State.pushQ (s : State) (qq : PairQ) : State :=
  match qq with
  | .bc => s.push16 s.bc
  | .de => s.push16 s.de
  | .hl => s.push16 s.hl
  | .af =>
    (s.drew 2).push16 (s.regs.a ++ s.regs.f.toByte (Config.freeBit s.draws) (Config.freeBit (s.draws + 1)))

/-- POP qq (R178). -/
def State.popQ (s : State) (qq : PairQ) : State :=
  match qq with
  | .bc => s.drop16.setBc s.top16
  | .de => s.drop16.setDe s.top16
  | .hl => s.drop16.setHl s.top16
  | .af => s.drop16.setAF (highByte s.top16, flagsOfByte (lowByte s.top16))

/-- `LD dd,nn` (R161). -/
def execLdPairImm (dd : Pair) (nn : Word) (s : State) : Result :=
  .next (s.setPair dd nn)

/-- `LD IX,nn` (R162). -/
def execLdIxImm (nn : Word) (s : State) : Result :=
  .next { s with ix := nn }

/-- `LD IY,nn` (R163). -/
def execLdIyImm (nn : Word) (s : State) : Result :=
  .next { s with iy := nn }

/-- `LD HL,(nn)` (R164). -/
def execLdHlMemNn (nn : Word) (s : State) : Result :=
  .next ((s.afterRead16 nn).setHl (s.read16 nn))

/-- `LD dd,(nn)` (R165). -/
def execLdPairMemNn (dd : Pair) (nn : Word) (s : State) : Result :=
  .next ((s.afterRead16 nn).setPair dd (s.read16 nn))

/-- `LD IX,(nn)` (R166). -/
def execLdIxMemNn (nn : Word) (s : State) : Result :=
  .next { s.afterRead16 nn with ix := s.read16 nn }

/-- `LD IY,(nn)` (R167). -/
def execLdIyMemNn (nn : Word) (s : State) : Result :=
  .next { s.afterRead16 nn with iy := s.read16 nn }

/-- `LD (nn),HL` (R168). -/
def execLdMemNnHl (nn : Word) (s : State) : Result :=
  .next (s.write16 nn s.hl)

/-- `LD (nn),dd` (R169). -/
def execLdMemNnPair (nn : Word) (dd : Pair) (s : State) : Result :=
  .next (s.write16 nn (s.getPair dd))

/-- `LD (nn),IX` (R170). -/
def execLdMemNnIx (nn : Word) (s : State) : Result :=
  .next (s.write16 nn s.ix)

/-- `LD (nn),IY` (R171). -/
def execLdMemNnIy (nn : Word) (s : State) : Result :=
  .next (s.write16 nn s.iy)

/-- `LD SP,HL` (R172). -/
def execLdSpHl (s : State) : Result :=
  .next { s with sp := s.hl }

/-- `LD SP,IX` (R173). -/
def execLdSpIx (s : State) : Result :=
  .next { s with sp := s.ix }

/-- `LD SP,IY` (R174). -/
def execLdSpIy (s : State) : Result :=
  .next { s with sp := s.iy }

/-- `PUSH qq` (R175). -/
def execPushPair (qq : PairQ) (s : State) : Result :=
  .next (s.pushQ qq)

/-- `PUSH IX` (R176). -/
def execPushIx (s : State) : Result :=
  .next (s.push16 s.ix)

/-- `PUSH IY` (R177). -/
def execPushIy (s : State) : Result :=
  .next (s.push16 s.iy)

/-- `POP qq` (R178). -/
def execPopPair (qq : PairQ) (s : State) : Result :=
  .next (s.popQ qq)

/-- `POP IX` (R179). -/
def execPopIx (s : State) : Result :=
  .next { s.drop16 with ix := s.top16 }

/-- `POP IY` (R180). -/
def execPopIy (s : State) : Result :=
  .next { s.drop16 with iy := s.top16 }

end Sys2Proof.Machine
end

