-- ==== Sys2Proof/Machine/Load8.lean ====
section
/-! DEFINITION. The 8-bit load group (40_load8.md R130 to R151). Only LD A,I and LD A,R write flags. -/

namespace Sys2Proof.Machine

/-- The value LD A,R reads (R149): R, which has counted this instruction's own two fetches; or, with R_MODEL = drawn,
a free value below bit 7. -/
def State.rValue (s : State) : Byte :=
  if s.params.rExact then s.r else s.r.extractLsb' 7 1 ++ (Config.freeByte s.draws).extractLsb' 0 7

/-- The free value is used up only with R_MODEL = drawn. -/
def State.countRDraw (s : State) : State :=
  { s with draws := if s.params.rExact then s.draws else s.draws + 1 }

/-- `LD r,r'` (R131). -/
def execLdRegReg (r : Reg8) (r' : Reg8) (s : State) : Result :=
  .next (s.setReg r (s.getReg r'))

/-- `LD r,n` (R132). -/
def execLdRegImm (r : Reg8) (n : Byte) (s : State) : Result :=
  .next (s.setReg r n)

/-- `LD r,(HL)` (R133). -/
def execLdRegMemHl (r : Reg8) (s : State) : Result :=
  .next ((s.afterRead8 s.hl).setReg r (s.read8 s.hl))

/-- `LD r,(IX+d)` (R134). -/
def execLdRegMemIx (r : Reg8) (d : Byte) (s : State) : Result :=
  .next ((s.afterRead8 (s.ixAddr d)).setReg r (s.read8 (s.ixAddr d)))

/-- `LD r,(IY+d)` (R135). -/
def execLdRegMemIy (r : Reg8) (d : Byte) (s : State) : Result :=
  .next ((s.afterRead8 (s.iyAddr d)).setReg r (s.read8 (s.iyAddr d)))

/-- `LD (HL),r` (R136). -/
def execLdMemHlReg (r : Reg8) (s : State) : Result :=
  .next (s.write8 s.hl (s.getReg r))

/-- `LD (IX+d),r` (R137). -/
def execLdMemIxReg (d : Byte) (r : Reg8) (s : State) : Result :=
  .next (s.write8 (s.ixAddr d) (s.getReg r))

/-- `LD (IY+d),r` (R138). -/
def execLdMemIyReg (d : Byte) (r : Reg8) (s : State) : Result :=
  .next (s.write8 (s.iyAddr d) (s.getReg r))

/-- `LD (HL),n` (R139). -/
def execLdMemHlImm (n : Byte) (s : State) : Result :=
  .next (s.write8 s.hl n)

/-- `LD (IX+d),n` (R140). -/
def execLdMemIxImm (d : Byte) (n : Byte) (s : State) : Result :=
  .next (s.write8 (s.ixAddr d) n)

/-- `LD (IY+d),n` (R141). -/
def execLdMemIyImm (d : Byte) (n : Byte) (s : State) : Result :=
  .next (s.write8 (s.iyAddr d) n)

/-- `LD A,(BC)` (R142). -/
def execLdAMemBc (s : State) : Result :=
  .next ((s.afterRead8 s.bc).setA (s.read8 s.bc))

/-- `LD A,(DE)` (R143). -/
def execLdAMemDe (s : State) : Result :=
  .next ((s.afterRead8 s.de).setA (s.read8 s.de))

/-- `LD A,(nn)` (R144). -/
def execLdAMemNn (nn : Word) (s : State) : Result :=
  .next ((s.afterRead8 nn).setA (s.read8 nn))

/-- `LD (BC),A` (R145). -/
def execLdMemBcA (s : State) : Result :=
  .next (s.write8 s.bc s.regs.a)

/-- `LD (DE),A` (R146). -/
def execLdMemDeA (s : State) : Result :=
  .next (s.write8 s.de s.regs.a)

/-- `LD (nn),A` (R147). -/
def execLdMemNnA (nn : Word) (s : State) : Result :=
  .next (s.write8 nn s.regs.a)

/-- `LD A,I` (R148). -/
def execLdAI (s : State) : Result :=
  .next (s.setAF (s.i, interruptRegFlags s.i s.iff2 s.regs.f))

/-- `LD A,R` (R149). -/
def execLdAR (s : State) : Result :=
  .next (s.countRDraw.setAF (s.rValue, interruptRegFlags s.rValue s.iff2 s.regs.f))

/-- `LD I,A` (R150). -/
def execLdIA (s : State) : Result :=
  .next { s with i := s.regs.a }

/-- `LD R,A` (R151). -/
def execLdRA (s : State) : Result :=
  .next { s with r := s.regs.a }

end Sys2Proof.Machine
end

