-- ==== Sys2Proof/Machine/Rotate.lean ====
section
/-! DEFINITION. The rotate and shift group (46_rotate_shift.md R335 to R376). -/

namespace Sys2Proof.Machine

/-- A rotate or shift of a register (R335). -/
def State.shiftReg (s : State) (f : Byte → Byte × Bool) (r : Reg8) : State := s.setRegF r (shifted (f (s.getReg r)))

/-- A rotate or shift of the byte at a: one read, one write (R335). -/
def State.shiftAt (s : State) (f : Byte → Byte × Bool) (a : Word) : State :=
  (s.afterRead8 a).writeF a (shifted (f (s.read8 a)))

/-- RLD: the new A and the new byte at HL (R375). -/
def rldDigits (a m : Byte) : Byte × Byte :=
  (a.extractLsb' 4 4 ++ m.extractLsb' 4 4, m.extractLsb' 0 4 ++ a.extractLsb' 0 4)

/-- RRD: the new A and the new byte at HL (R376). -/
def rrdDigits (a m : Byte) : Byte × Byte :=
  (a.extractLsb' 4 4 ++ m.extractLsb' 0 4, a.extractLsb' 0 4 ++ m.extractLsb' 4 4)

/-- RLD and RRD: the byte at HL is read, the digits go to A and back to HL; the flags are those of the new A, C is kept
(R375). -/
def State.rotateDigits (s : State) (digits : Byte → Byte → Byte × Byte) : State :=
  let p := digits s.regs.a (s.read8 s.hl)
  ((s.afterRead8 s.hl).write8 s.hl p.2).setAF (p.1, parityFlags p.1 s.regs.f)

/-- `RLCA` (R343). -/
def execRlca (s : State) : Result :=
  .next (s.setAF (rotatedA (rlc8 s.regs.a) s.regs.f))

/-- `RLA` (R344). -/
def execRla (s : State) : Result :=
  .next (s.setAF (rotatedA (rl8 s.regs.f.c s.regs.a) s.regs.f))

/-- `RRCA` (R345). -/
def execRrca (s : State) : Result :=
  .next (s.setAF (rotatedA (rrc8 s.regs.a) s.regs.f))

/-- `RRA` (R346). -/
def execRra (s : State) : Result :=
  .next (s.setAF (rotatedA (rr8 s.regs.f.c s.regs.a) s.regs.f))

/-- `RLC r` (R347). -/
def execRlcReg (r : Reg8) (s : State) : Result :=
  .next (s.shiftReg rlc8 r)

/-- `RLC (HL)` (R348). -/
def execRlcMemHl (s : State) : Result :=
  .next (s.shiftAt rlc8 s.hl)

/-- `RLC (IX+d)` (R349). -/
def execRlcMemIx (d : Byte) (s : State) : Result :=
  .next (s.shiftAt rlc8 (s.ixAddr d))

/-- `RLC (IY+d)` (R350). -/
def execRlcMemIy (d : Byte) (s : State) : Result :=
  .next (s.shiftAt rlc8 (s.iyAddr d))

/-- `RL r` (R351). -/
def execRlReg (r : Reg8) (s : State) : Result :=
  .next (s.shiftReg (rl8 s.regs.f.c) r)

/-- `RL (HL)` (R352). -/
def execRlMemHl (s : State) : Result :=
  .next (s.shiftAt (rl8 s.regs.f.c) s.hl)

/-- `RL (IX+d)` (R353). -/
def execRlMemIx (d : Byte) (s : State) : Result :=
  .next (s.shiftAt (rl8 s.regs.f.c) (s.ixAddr d))

/-- `RL (IY+d)` (R354). -/
def execRlMemIy (d : Byte) (s : State) : Result :=
  .next (s.shiftAt (rl8 s.regs.f.c) (s.iyAddr d))

/-- `RRC r` (R355). -/
def execRrcReg (r : Reg8) (s : State) : Result :=
  .next (s.shiftReg rrc8 r)

/-- `RRC (HL)` (R356). -/
def execRrcMemHl (s : State) : Result :=
  .next (s.shiftAt rrc8 s.hl)

/-- `RRC (IX+d)` (R357). -/
def execRrcMemIx (d : Byte) (s : State) : Result :=
  .next (s.shiftAt rrc8 (s.ixAddr d))

/-- `RRC (IY+d)` (R358). -/
def execRrcMemIy (d : Byte) (s : State) : Result :=
  .next (s.shiftAt rrc8 (s.iyAddr d))

/-- `RR r` (R359). -/
def execRrReg (r : Reg8) (s : State) : Result :=
  .next (s.shiftReg (rr8 s.regs.f.c) r)

/-- `RR (HL)` (R360). -/
def execRrMemHl (s : State) : Result :=
  .next (s.shiftAt (rr8 s.regs.f.c) s.hl)

/-- `RR (IX+d)` (R361). -/
def execRrMemIx (d : Byte) (s : State) : Result :=
  .next (s.shiftAt (rr8 s.regs.f.c) (s.ixAddr d))

/-- `RR (IY+d)` (R362). -/
def execRrMemIy (d : Byte) (s : State) : Result :=
  .next (s.shiftAt (rr8 s.regs.f.c) (s.iyAddr d))

/-- `SLA r` (R363). -/
def execSlaReg (r : Reg8) (s : State) : Result :=
  .next (s.shiftReg sla8 r)

/-- `SLA (HL)` (R364). -/
def execSlaMemHl (s : State) : Result :=
  .next (s.shiftAt sla8 s.hl)

/-- `SLA (IX+d)` (R365). -/
def execSlaMemIx (d : Byte) (s : State) : Result :=
  .next (s.shiftAt sla8 (s.ixAddr d))

/-- `SLA (IY+d)` (R366). -/
def execSlaMemIy (d : Byte) (s : State) : Result :=
  .next (s.shiftAt sla8 (s.iyAddr d))

/-- `SRA r` (R367). -/
def execSraReg (r : Reg8) (s : State) : Result :=
  .next (s.shiftReg sra8 r)

/-- `SRA (HL)` (R368). -/
def execSraMemHl (s : State) : Result :=
  .next (s.shiftAt sra8 s.hl)

/-- `SRA (IX+d)` (R369). -/
def execSraMemIx (d : Byte) (s : State) : Result :=
  .next (s.shiftAt sra8 (s.ixAddr d))

/-- `SRA (IY+d)` (R370). -/
def execSraMemIy (d : Byte) (s : State) : Result :=
  .next (s.shiftAt sra8 (s.iyAddr d))

/-- `SRL r` (R371). -/
def execSrlReg (r : Reg8) (s : State) : Result :=
  .next (s.shiftReg srl8 r)

/-- `SRL (HL)` (R372). -/
def execSrlMemHl (s : State) : Result :=
  .next (s.shiftAt srl8 s.hl)

/-- `SRL (IX+d)` (R373). -/
def execSrlMemIx (d : Byte) (s : State) : Result :=
  .next (s.shiftAt srl8 (s.ixAddr d))

/-- `SRL (IY+d)` (R374). -/
def execSrlMemIy (d : Byte) (s : State) : Result :=
  .next (s.shiftAt srl8 (s.iyAddr d))

/-- `RLD` (R375). -/
def execRld (s : State) : Result :=
  .next (s.rotateDigits rldDigits)

/-- `RRD` (R376). -/
def execRrd (s : State) : Result :=
  .next (s.rotateDigits rrdDigits)

end Sys2Proof.Machine
end

