-- ==== Sys2Proof/Machine/Dispatch.lean ====
section
/-! DEFINITION. Which meaning each instruction has: one arm per constructor of `Instr`. The state given to a meaning
is the one after the instruction's bytes are fetched (State.fetched): PC is past the instruction and R has counted. -/

namespace Sys2Proof.Machine

def exec (i : Instr) (s : State) : Host.Outcome State Fault Refusal :=
  match i with
  -- 8-bit loads (40_load8.md)
  | .ldRegReg r r' => Sys2Proof.Machine.execLdRegReg r r' s
  | .ldRegImm r n => Sys2Proof.Machine.execLdRegImm r n s
  | .ldRegMemHl r => Sys2Proof.Machine.execLdRegMemHl r s
  | .ldRegMemIx r d => Sys2Proof.Machine.execLdRegMemIx r d s
  | .ldRegMemIy r d => Sys2Proof.Machine.execLdRegMemIy r d s
  | .ldMemHlReg r => Sys2Proof.Machine.execLdMemHlReg r s
  | .ldMemIxReg d r => Sys2Proof.Machine.execLdMemIxReg d r s
  | .ldMemIyReg d r => Sys2Proof.Machine.execLdMemIyReg d r s
  | .ldMemHlImm n => Sys2Proof.Machine.execLdMemHlImm n s
  | .ldMemIxImm d n => Sys2Proof.Machine.execLdMemIxImm d n s
  | .ldMemIyImm d n => Sys2Proof.Machine.execLdMemIyImm d n s
  | .ldAMemBc => Sys2Proof.Machine.execLdAMemBc s
  | .ldAMemDe => Sys2Proof.Machine.execLdAMemDe s
  | .ldAMemNn nn => Sys2Proof.Machine.execLdAMemNn nn s
  | .ldMemBcA => Sys2Proof.Machine.execLdMemBcA s
  | .ldMemDeA => Sys2Proof.Machine.execLdMemDeA s
  | .ldMemNnA nn => Sys2Proof.Machine.execLdMemNnA nn s
  | .ldAI => Sys2Proof.Machine.execLdAI s
  | .ldAR => Sys2Proof.Machine.execLdAR s
  | .ldIA => Sys2Proof.Machine.execLdIA s
  | .ldRA => Sys2Proof.Machine.execLdRA s
  -- 16-bit loads (41_load16.md)
  | .ldPairImm dd nn => Sys2Proof.Machine.execLdPairImm dd nn s
  | .ldIxImm nn => Sys2Proof.Machine.execLdIxImm nn s
  | .ldIyImm nn => Sys2Proof.Machine.execLdIyImm nn s
  | .ldHlMemNn nn => Sys2Proof.Machine.execLdHlMemNn nn s
  | .ldPairMemNn dd nn => Sys2Proof.Machine.execLdPairMemNn dd nn s
  | .ldIxMemNn nn => Sys2Proof.Machine.execLdIxMemNn nn s
  | .ldIyMemNn nn => Sys2Proof.Machine.execLdIyMemNn nn s
  | .ldMemNnHl nn => Sys2Proof.Machine.execLdMemNnHl nn s
  | .ldMemNnPair nn dd => Sys2Proof.Machine.execLdMemNnPair nn dd s
  | .ldMemNnIx nn => Sys2Proof.Machine.execLdMemNnIx nn s
  | .ldMemNnIy nn => Sys2Proof.Machine.execLdMemNnIy nn s
  | .ldSpHl => Sys2Proof.Machine.execLdSpHl s
  | .ldSpIx => Sys2Proof.Machine.execLdSpIx s
  | .ldSpIy => Sys2Proof.Machine.execLdSpIy s
  | .pushPair qq => Sys2Proof.Machine.execPushPair qq s
  | .pushIx => Sys2Proof.Machine.execPushIx s
  | .pushIy => Sys2Proof.Machine.execPushIy s
  | .popPair qq => Sys2Proof.Machine.execPopPair qq s
  | .popIx => Sys2Proof.Machine.execPopIx s
  | .popIy => Sys2Proof.Machine.execPopIy s
  -- exchange, block transfer, block search (42_exchange_block.md)
  | .exDeHl => Sys2Proof.Machine.execExDeHl s
  | .exAfAf => Sys2Proof.Machine.execExAfAf s
  | .exx => Sys2Proof.Machine.execExx s
  | .exMemSpHl => Sys2Proof.Machine.execExMemSpHl s
  | .exMemSpIx => Sys2Proof.Machine.execExMemSpIx s
  | .exMemSpIy => Sys2Proof.Machine.execExMemSpIy s
  | .ldi => Sys2Proof.Machine.execLdi s
  | .ldir => Sys2Proof.Machine.execLdir s
  | .ldd => Sys2Proof.Machine.execLdd s
  | .lddr => Sys2Proof.Machine.execLddr s
  | .cpi => Sys2Proof.Machine.execCpi s
  | .cpir => Sys2Proof.Machine.execCpir s
  | .cpd => Sys2Proof.Machine.execCpd s
  | .cpdr => Sys2Proof.Machine.execCpdr s
  -- 8-bit arithmetic and logic (43_alu8.md)
  | .addReg r => Sys2Proof.Machine.execAddReg r s
  | .addImm n => Sys2Proof.Machine.execAddImm n s
  | .addMemHl => Sys2Proof.Machine.execAddMemHl s
  | .addMemIx d => Sys2Proof.Machine.execAddMemIx d s
  | .addMemIy d => Sys2Proof.Machine.execAddMemIy d s
  | .adcReg r => Sys2Proof.Machine.execAdcReg r s
  | .adcImm n => Sys2Proof.Machine.execAdcImm n s
  | .adcMemHl => Sys2Proof.Machine.execAdcMemHl s
  | .adcMemIx d => Sys2Proof.Machine.execAdcMemIx d s
  | .adcMemIy d => Sys2Proof.Machine.execAdcMemIy d s
  | .subReg r => Sys2Proof.Machine.execSubReg r s
  | .subImm n => Sys2Proof.Machine.execSubImm n s
  | .subMemHl => Sys2Proof.Machine.execSubMemHl s
  | .subMemIx d => Sys2Proof.Machine.execSubMemIx d s
  | .subMemIy d => Sys2Proof.Machine.execSubMemIy d s
  | .sbcReg r => Sys2Proof.Machine.execSbcReg r s
  | .sbcImm n => Sys2Proof.Machine.execSbcImm n s
  | .sbcMemHl => Sys2Proof.Machine.execSbcMemHl s
  | .sbcMemIx d => Sys2Proof.Machine.execSbcMemIx d s
  | .sbcMemIy d => Sys2Proof.Machine.execSbcMemIy d s
  | .andReg r => Sys2Proof.Machine.execAndReg r s
  | .andImm n => Sys2Proof.Machine.execAndImm n s
  | .andMemHl => Sys2Proof.Machine.execAndMemHl s
  | .andMemIx d => Sys2Proof.Machine.execAndMemIx d s
  | .andMemIy d => Sys2Proof.Machine.execAndMemIy d s
  | .orReg r => Sys2Proof.Machine.execOrReg r s
  | .orImm n => Sys2Proof.Machine.execOrImm n s
  | .orMemHl => Sys2Proof.Machine.execOrMemHl s
  | .orMemIx d => Sys2Proof.Machine.execOrMemIx d s
  | .orMemIy d => Sys2Proof.Machine.execOrMemIy d s
  | .xorReg r => Sys2Proof.Machine.execXorReg r s
  | .xorImm n => Sys2Proof.Machine.execXorImm n s
  | .xorMemHl => Sys2Proof.Machine.execXorMemHl s
  | .xorMemIx d => Sys2Proof.Machine.execXorMemIx d s
  | .xorMemIy d => Sys2Proof.Machine.execXorMemIy d s
  | .cpReg r => Sys2Proof.Machine.execCpReg r s
  | .cpImm n => Sys2Proof.Machine.execCpImm n s
  | .cpMemHl => Sys2Proof.Machine.execCpMemHl s
  | .cpMemIx d => Sys2Proof.Machine.execCpMemIx d s
  | .cpMemIy d => Sys2Proof.Machine.execCpMemIy d s
  | .incReg r => Sys2Proof.Machine.execIncReg r s
  | .incMemHl => Sys2Proof.Machine.execIncMemHl s
  | .incMemIx d => Sys2Proof.Machine.execIncMemIx d s
  | .incMemIy d => Sys2Proof.Machine.execIncMemIy d s
  | .decReg r => Sys2Proof.Machine.execDecReg r s
  | .decMemHl => Sys2Proof.Machine.execDecMemHl s
  | .decMemIx d => Sys2Proof.Machine.execDecMemIx d s
  | .decMemIy d => Sys2Proof.Machine.execDecMemIy d s
  -- general arithmetic and CPU control (44_general_cpu_control.md)
  | .daa => Sys2Proof.Machine.execDaa s
  | .cpl => Sys2Proof.Machine.execCpl s
  | .neg => Sys2Proof.Machine.execNeg s
  | .ccf => Sys2Proof.Machine.execCcf s
  | .scf => Sys2Proof.Machine.execScf s
  | .nop => Sys2Proof.Machine.execNop s
  | .halt => Sys2Proof.Machine.execHalt s
  | .di => Sys2Proof.Machine.execDi s
  | .ei => Sys2Proof.Machine.execEi s
  | .im0 => Sys2Proof.Machine.execIm0 s
  | .im1 => Sys2Proof.Machine.execIm1 s
  | .im2 => Sys2Proof.Machine.execIm2 s
  -- 16-bit arithmetic (45_arith16.md)
  | .addHlPair ss => Sys2Proof.Machine.execAddHlPair ss s
  | .adcHlPair ss => Sys2Proof.Machine.execAdcHlPair ss s
  | .sbcHlPair ss => Sys2Proof.Machine.execSbcHlPair ss s
  | .addIxPair pp => Sys2Proof.Machine.execAddIxPair pp s
  | .addIyPair rr => Sys2Proof.Machine.execAddIyPair rr s
  | .incPair ss => Sys2Proof.Machine.execIncPair ss s
  | .incIx => Sys2Proof.Machine.execIncIx s
  | .incIy => Sys2Proof.Machine.execIncIy s
  | .decPair ss => Sys2Proof.Machine.execDecPair ss s
  | .decIx => Sys2Proof.Machine.execDecIx s
  | .decIy => Sys2Proof.Machine.execDecIy s
  -- rotate and shift (46_rotate_shift.md)
  | .rlca => Sys2Proof.Machine.execRlca s
  | .rla => Sys2Proof.Machine.execRla s
  | .rrca => Sys2Proof.Machine.execRrca s
  | .rra => Sys2Proof.Machine.execRra s
  | .rlcReg r => Sys2Proof.Machine.execRlcReg r s
  | .rlcMemHl => Sys2Proof.Machine.execRlcMemHl s
  | .rlcMemIx d => Sys2Proof.Machine.execRlcMemIx d s
  | .rlcMemIy d => Sys2Proof.Machine.execRlcMemIy d s
  | .rlReg r => Sys2Proof.Machine.execRlReg r s
  | .rlMemHl => Sys2Proof.Machine.execRlMemHl s
  | .rlMemIx d => Sys2Proof.Machine.execRlMemIx d s
  | .rlMemIy d => Sys2Proof.Machine.execRlMemIy d s
  | .rrcReg r => Sys2Proof.Machine.execRrcReg r s
  | .rrcMemHl => Sys2Proof.Machine.execRrcMemHl s
  | .rrcMemIx d => Sys2Proof.Machine.execRrcMemIx d s
  | .rrcMemIy d => Sys2Proof.Machine.execRrcMemIy d s
  | .rrReg r => Sys2Proof.Machine.execRrReg r s
  | .rrMemHl => Sys2Proof.Machine.execRrMemHl s
  | .rrMemIx d => Sys2Proof.Machine.execRrMemIx d s
  | .rrMemIy d => Sys2Proof.Machine.execRrMemIy d s
  | .slaReg r => Sys2Proof.Machine.execSlaReg r s
  | .slaMemHl => Sys2Proof.Machine.execSlaMemHl s
  | .slaMemIx d => Sys2Proof.Machine.execSlaMemIx d s
  | .slaMemIy d => Sys2Proof.Machine.execSlaMemIy d s
  | .sraReg r => Sys2Proof.Machine.execSraReg r s
  | .sraMemHl => Sys2Proof.Machine.execSraMemHl s
  | .sraMemIx d => Sys2Proof.Machine.execSraMemIx d s
  | .sraMemIy d => Sys2Proof.Machine.execSraMemIy d s
  | .srlReg r => Sys2Proof.Machine.execSrlReg r s
  | .srlMemHl => Sys2Proof.Machine.execSrlMemHl s
  | .srlMemIx d => Sys2Proof.Machine.execSrlMemIx d s
  | .srlMemIy d => Sys2Proof.Machine.execSrlMemIy d s
  | .rld => Sys2Proof.Machine.execRld s
  | .rrd => Sys2Proof.Machine.execRrd s
  -- bit test, set, reset (47_bit.md)
  | .bitReg b r => Sys2Proof.Machine.execBitReg b r s
  | .bitMemHl b => Sys2Proof.Machine.execBitMemHl b s
  | .bitMemIx b d => Sys2Proof.Machine.execBitMemIx b d s
  | .bitMemIy b d => Sys2Proof.Machine.execBitMemIy b d s
  | .setReg b r => Sys2Proof.Machine.execSetReg b r s
  | .setMemHl b => Sys2Proof.Machine.execSetMemHl b s
  | .setMemIx b d => Sys2Proof.Machine.execSetMemIx b d s
  | .setMemIy b d => Sys2Proof.Machine.execSetMemIy b d s
  | .resReg b r => Sys2Proof.Machine.execResReg b r s
  | .resMemHl b => Sys2Proof.Machine.execResMemHl b s
  | .resMemIx b d => Sys2Proof.Machine.execResMemIx b d s
  | .resMemIy b d => Sys2Proof.Machine.execResMemIy b d s
  -- jump, call, return (48_jump_call_return.md)
  | .jp nn => Sys2Proof.Machine.execJp nn s
  | .jpCond cc nn => Sys2Proof.Machine.execJpCond cc nn s
  | .jr e => Sys2Proof.Machine.execJr e s
  | .jrC e => Sys2Proof.Machine.execJrC e s
  | .jrNc e => Sys2Proof.Machine.execJrNc e s
  | .jrZ e => Sys2Proof.Machine.execJrZ e s
  | .jrNz e => Sys2Proof.Machine.execJrNz e s
  | .jpHl => Sys2Proof.Machine.execJpHl s
  | .jpIx => Sys2Proof.Machine.execJpIx s
  | .jpIy => Sys2Proof.Machine.execJpIy s
  | .djnz e => Sys2Proof.Machine.execDjnz e s
  | .call nn => Sys2Proof.Machine.execCall nn s
  | .callCond cc nn => Sys2Proof.Machine.execCallCond cc nn s
  | .ret => Sys2Proof.Machine.execRet s
  | .retCond cc => Sys2Proof.Machine.execRetCond cc s
  | .reti => Sys2Proof.Machine.execReti s
  | .retn => Sys2Proof.Machine.execRetn s
  | .rst p => Sys2Proof.Machine.execRst p s
  -- input and output (49_io.md)
  | .inAImm n => Sys2Proof.Machine.execInAImm n s
  | .inRegC t => Sys2Proof.Machine.execInRegC t s
  | .ini => Sys2Proof.Machine.execIni s
  | .inir => Sys2Proof.Machine.execInir s
  | .ind => Sys2Proof.Machine.execInd s
  | .indr => Sys2Proof.Machine.execIndr s
  | .outImmA n => Sys2Proof.Machine.execOutImmA n s
  | .outCReg r => Sys2Proof.Machine.execOutCReg r s
  | .outi => Sys2Proof.Machine.execOuti s
  | .otir => Sys2Proof.Machine.execOtir s
  | .outd => Sys2Proof.Machine.execOutd s
  | .otdr => Sys2Proof.Machine.execOtdr s

end Sys2Proof.Machine
end

