-- ==== Sys2Proof/WellFormed.lean ====
section
/-! DEFINITION. Which instructions are well formed. The operand types admit only what an encoding admits, but for
the RST operand, which the source writes as the target address p (30_encoding.md R122) and which must be one of
00H, 08H, ..., 38H (R101). -/

namespace Sys2Proof

/-- p is one of the eight restart addresses of R101. -/
def restartAddress (p : Byte) : Bool :=
  p &&& 0xC7#8 == 0#8

/-- The instruction has an encoding (R101 is the one restriction the operand types leave). -/
def WellFormed (i : Instr) : Bool :=
  match i with
  | .ldRegReg _ _ | .ldRegImm _ _ | .ldRegMemHl _ | .ldRegMemIx _ _ | .ldRegMemIy _ _ | .ldMemHlReg _
  | .ldMemIxReg _ _ | .ldMemIyReg _ _ | .ldMemHlImm _ | .ldMemIxImm _ _ | .ldMemIyImm _ _ | .ldAMemBc
  | .ldAMemDe | .ldAMemNn _ | .ldMemBcA | .ldMemDeA | .ldMemNnA _ | .ldAI | .ldAR | .ldIA | .ldRA
  | .ldPairImm _ _ | .ldIxImm _ | .ldIyImm _ | .ldHlMemNn _ | .ldPairMemNn _ _ | .ldIxMemNn _
  | .ldIyMemNn _ | .ldMemNnHl _ | .ldMemNnPair _ _ | .ldMemNnIx _ | .ldMemNnIy _ | .ldSpHl | .ldSpIx
  | .ldSpIy | .pushPair _ | .pushIx | .pushIy | .popPair _ | .popIx | .popIy | .exDeHl | .exAfAf | .exx
  | .exMemSpHl | .exMemSpIx | .exMemSpIy | .ldi | .ldir | .ldd | .lddr | .cpi | .cpir | .cpd | .cpdr
  | .addReg _ | .addImm _ | .addMemHl | .addMemIx _ | .addMemIy _ | .adcReg _ | .adcImm _ | .adcMemHl
  | .adcMemIx _ | .adcMemIy _ | .subReg _ | .subImm _ | .subMemHl | .subMemIx _ | .subMemIy _ | .sbcReg _
  | .sbcImm _ | .sbcMemHl | .sbcMemIx _ | .sbcMemIy _ | .andReg _ | .andImm _ | .andMemHl | .andMemIx _
  | .andMemIy _ | .orReg _ | .orImm _ | .orMemHl | .orMemIx _ | .orMemIy _ | .xorReg _ | .xorImm _
  | .xorMemHl | .xorMemIx _ | .xorMemIy _ | .cpReg _ | .cpImm _ | .cpMemHl | .cpMemIx _ | .cpMemIy _
  | .incReg _ | .incMemHl | .incMemIx _ | .incMemIy _ | .decReg _ | .decMemHl | .decMemIx _ | .decMemIy _
  | .daa | .cpl | .neg | .ccf | .scf | .nop | .halt | .di | .ei | .im0 | .im1 | .im2 | .addHlPair _
  | .adcHlPair _ | .sbcHlPair _ | .addIxPair _ | .addIyPair _ | .incPair _ | .incIx | .incIy | .decPair _
  | .decIx | .decIy | .rlca | .rla | .rrca | .rra | .rlcReg _ | .rlcMemHl | .rlcMemIx _ | .rlcMemIy _
  | .rlReg _ | .rlMemHl | .rlMemIx _ | .rlMemIy _ | .rrcReg _ | .rrcMemHl | .rrcMemIx _ | .rrcMemIy _
  | .rrReg _ | .rrMemHl | .rrMemIx _ | .rrMemIy _ | .slaReg _ | .slaMemHl | .slaMemIx _ | .slaMemIy _
  | .sraReg _ | .sraMemHl | .sraMemIx _ | .sraMemIy _ | .srlReg _ | .srlMemHl | .srlMemIx _ | .srlMemIy _
  | .rld | .rrd | .bitReg _ _ | .bitMemHl _ | .bitMemIx _ _ | .bitMemIy _ _ | .setReg _ _ | .setMemHl _
  | .setMemIx _ _ | .setMemIy _ _ | .resReg _ _ | .resMemHl _ | .resMemIx _ _ | .resMemIy _ _ | .jp _
  | .jpCond _ _ | .jr _ | .jrC _ | .jrNc _ | .jrZ _ | .jrNz _ | .jpHl | .jpIx | .jpIy | .djnz _ | .call _
  | .callCond _ _ | .ret | .retCond _ | .reti | .retn | .inAImm _ | .inRegC _ | .ini | .inir | .ind | .indr
  | .outImmA _ | .outCReg _ | .outi | .otir | .outd | .otdr => true
  | .rst p => restartAddress p

end Sys2Proof
end

