-- ==== Sys2Proof/Decode.lean ====
section
/-! DEFINITION. Decoding and encoding (30_encoding.md). The decoder follows the opcode maps of R114 to R118 page by
page and rejects every other byte sequence by name (R120); the encoder is written from the encoding lines of the
instruction rules. -/

namespace Sys2Proof

/-! ### Field codes -/

/-- R96. -/
def Reg8.code : Reg8 → BitVec 3
  | .b => 0b000#3 | .c => 0b001#3 | .d => 0b010#3 | .e => 0b011#3 | .h => 0b100#3 | .l => 0b101#3 | .a => 0b111#3

/-- R96 read backwards: code 110 is no register. -/
def reg8OfCode (k : BitVec 3) : Option Reg8 :=
  match k with
  | 0b000#3 => some .b | 0b001#3 => some .c | 0b010#3 => some .d | 0b011#3 => some .e
  | 0b100#3 => some .h | 0b101#3 => some .l | 0b110#3 => none | _ => some .a

/-- R97. -/
def Pair.code : Pair → BitVec 2
  | .bc => 0b00#2 | .de => 0b01#2 | .hl => 0b10#2 | .sp => 0b11#2

/-- R97 read backwards. -/
def pairOfCode (k : BitVec 2) : Pair :=
  match k with
  | 0b00#2 => .bc | 0b01#2 => .de | 0b10#2 => .hl | _ => .sp

/-- R98. -/
def PairQ.code : PairQ → BitVec 2
  | .bc => 0b00#2 | .de => 0b01#2 | .hl => 0b10#2 | .af => 0b11#2

/-- R98 read backwards. -/
def pairQOfCode (k : BitVec 2) : PairQ :=
  match k with
  | 0b00#2 => .bc | 0b01#2 => .de | 0b10#2 => .hl | _ => .af

/-- R99, `pp`. -/
def PairX.code : PairX → BitVec 2
  | .bc => 0b00#2 | .de => 0b01#2 | .ix => 0b10#2 | .sp => 0b11#2

/-- R99, `pp` read backwards. -/
def pairXOfCode (k : BitVec 2) : PairX :=
  match k with
  | 0b00#2 => .bc | 0b01#2 => .de | 0b10#2 => .ix | _ => .sp

/-- R99, `rr`. -/
def PairY.code : PairY → BitVec 2
  | .bc => 0b00#2 | .de => 0b01#2 | .iy => 0b10#2 | .sp => 0b11#2

/-- R99, `rr` read backwards. -/
def pairYOfCode (k : BitVec 2) : PairY :=
  match k with
  | 0b00#2 => .bc | 0b01#2 => .de | 0b10#2 => .iy | _ => .sp

/-- R100. -/
def Cond.code : Cond → BitVec 3
  | .nz => 0b000#3 | .z => 0b001#3 | .nc => 0b010#3 | .c => 0b011#3
  | .po => 0b100#3 | .pe => 0b101#3 | .p => 0b110#3 | .m => 0b111#3

/-- R100 read backwards. -/
def condOfCode (k : BitVec 3) : Cond :=
  match k with
  | 0b000#3 => .nz | 0b001#3 => .z | 0b010#3 => .nc | 0b011#3 => .c
  | 0b100#3 => .po | 0b101#3 => .pe | 0b110#3 => .p | _ => .m

/-- The r field of `IN r,(C)` (R452): a register code, or 110 for the flags alone. -/
def InDest.code : InDest → BitVec 3
  | .reg r => r.code
  | .flagsOnly => 0b110#3

/-- R452 read backwards. -/
def inDestOfCode (k : BitVec 3) : InDest :=
  match reg8OfCode k with
  | some r => .reg r
  | none => .flagsOnly

/-- The restart address of code t: p = 8 * t (R101). -/
def restartOfCode (t : BitVec 3) : Byte :=
  0b00#2 ++ t ++ 0b000#3

/-- The low-order half of a 16-bit operand, which comes first in the instruction (R105). -/
def nnLow (nn : Word) : Byte := nn.extractLsb' 0 8

/-- The high-order half of a 16-bit operand (R105). -/
def nnHigh (nn : Word) : Byte := nn.extractLsb' 8 8

/-! ### Operand bytes -/

/-- What a decoder answers: the instruction and the bytes after it, or the name of what is wrong. -/
abbrev Decoded := Except DecodeError (Instr × List Byte)

/-- No operand byte: formats OP, CB OP, ED OP, XY OP (R91). -/
def plain (i : Instr) (t : List Byte) : Decoded := .ok (i, t)

/-- One operand byte: n, e or d (R103, R104, R106). -/
def withByte (t : List Byte) (k : Byte → Instr) : Decoded :=
  match t with
  | n :: t' => .ok (k n, t')
  | [] => .error .truncated

/-- Two operand bytes d, n in that order: format XY OP d n (R91, R140). -/
def withTwoBytes (t : List Byte) (k : Byte → Byte → Instr) : Decoded :=
  match t with
  | d :: n :: t' => .ok (k d n, t')
  | _ => .error .truncated

/-- A 16-bit operand, low byte first (R105). -/
def withWord (t : List Byte) (k : Word → Instr) : Decoded :=
  match t with
  | lo :: hi :: t' => .ok (k (hi ++ lo), t')
  | _ => .error .truncated

/-! ### Operation codes -/

/-- The eight operations of the arithmetic group on a register (R108). -/
def aluReg (y : BitVec 3) (r : Reg8) : Instr :=
  match y with
  | 0b000#3 => .addReg r | 0b001#3 => .adcReg r | 0b010#3 => .subReg r | 0b011#3 => .sbcReg r
  | 0b100#3 => .andReg r | 0b101#3 => .xorReg r | 0b110#3 => .orReg r | _ => .cpReg r

/-- R108 on an immediate byte. -/
def aluImm (y : BitVec 3) (n : Byte) : Instr :=
  match y with
  | 0b000#3 => .addImm n | 0b001#3 => .adcImm n | 0b010#3 => .subImm n | 0b011#3 => .sbcImm n
  | 0b100#3 => .andImm n | 0b101#3 => .xorImm n | 0b110#3 => .orImm n | _ => .cpImm n

/-- R108 on (HL). -/
def aluMemHl (y : BitVec 3) : Instr :=
  match y with
  | 0b000#3 => .addMemHl | 0b001#3 => .adcMemHl | 0b010#3 => .subMemHl | 0b011#3 => .sbcMemHl
  | 0b100#3 => .andMemHl | 0b101#3 => .xorMemHl | 0b110#3 => .orMemHl | _ => .cpMemHl

/-- R108 on (IX+d). -/
def aluMemIx (y : BitVec 3) (d : Byte) : Instr :=
  match y with
  | 0b000#3 => .addMemIx d | 0b001#3 => .adcMemIx d | 0b010#3 => .subMemIx d | 0b011#3 => .sbcMemIx d
  | 0b100#3 => .andMemIx d | 0b101#3 => .xorMemIx d | 0b110#3 => .orMemIx d | _ => .cpMemIx d

/-- R108 on (IY+d). -/
def aluMemIy (y : BitVec 3) (d : Byte) : Instr :=
  match y with
  | 0b000#3 => .addMemIy d | 0b001#3 => .adcMemIy d | 0b010#3 => .subMemIy d | 0b011#3 => .sbcMemIy d
  | 0b100#3 => .andMemIy d | 0b101#3 => .xorMemIy d | 0b110#3 => .orMemIy d | _ => .cpMemIy d

/-- The rotates and shifts on a register (R109); code 110 is undefined. -/
def rotReg (y : BitVec 3) (r : Reg8) : Option Instr :=
  match y with
  | 0b000#3 => some (.rlcReg r) | 0b001#3 => some (.rrcReg r) | 0b010#3 => some (.rlReg r) | 0b011#3 => some (.rrReg r)
  | 0b100#3 => some (.slaReg r) | 0b101#3 => some (.sraReg r) | 0b110#3 => none | _ => some (.srlReg r)

/-- R109 on (HL). -/
def rotMemHl (y : BitVec 3) : Option Instr :=
  match y with
  | 0b000#3 => some .rlcMemHl | 0b001#3 => some .rrcMemHl | 0b010#3 => some .rlMemHl | 0b011#3 => some .rrMemHl
  | 0b100#3 => some .slaMemHl | 0b101#3 => some .sraMemHl | 0b110#3 => none | _ => some .srlMemHl

/-- R109 on (IX+d). -/
def rotMemIx (y : BitVec 3) (d : Byte) : Option Instr :=
  match y with
  | 0b000#3 => some (.rlcMemIx d) | 0b001#3 => some (.rrcMemIx d) | 0b010#3 => some (.rlMemIx d)
  | 0b011#3 => some (.rrMemIx d) | 0b100#3 => some (.slaMemIx d) | 0b101#3 => some (.sraMemIx d)
  | 0b110#3 => none | _ => some (.srlMemIx d)

/-- R109 on (IY+d). -/
def rotMemIy (y : BitVec 3) (d : Byte) : Option Instr :=
  match y with
  | 0b000#3 => some (.rlcMemIy d) | 0b001#3 => some (.rrcMemIy d) | 0b010#3 => some (.rlMemIy d)
  | 0b011#3 => some (.rrMemIy d) | 0b100#3 => some (.slaMemIy d) | 0b101#3 => some (.sraMemIy d)
  | 0b110#3 => none | _ => some (.srlMemIy d)

/-! ### Pages -/

/-- The CB page (R115): the byte after CB is op. -/
def decodeCb (op : Byte) (t : List Byte) : Decoded :=
  let y := op.extractLsb' 3 3
  match op.extractLsb' 6 2, reg8OfCode (op.extractLsb' 0 3) with
  | 0b00#2, some r =>
    match rotReg y r with
    | some i => plain i t
    | none => .error (.undefinedCb op)
  | 0b00#2, none =>
    match rotMemHl y with
    | some i => plain i t
    | none => .error (.undefinedCb op)
  | 0b01#2, some r => plain (.bitReg y r) t
  | 0b01#2, none => plain (.bitMemHl y) t
  | 0b10#2, some r => plain (.resReg y r) t
  | 0b10#2, none => plain (.resMemHl y) t
  | _, some r => plain (.setReg y r) t
  | _, none => plain (.setMemHl y) t

/-- The ED page (R116): the byte after ED is op. -/
def decodeEd (op : Byte) (t : List Byte) : Decoded :=
  match op with
  | 0x44#8 => plain .neg t
  | 0x45#8 => plain .retn t
  | 0x4D#8 => plain .reti t
  | 0x46#8 => plain .im0 t
  | 0x56#8 => plain .im1 t
  | 0x5E#8 => plain .im2 t
  | 0x47#8 => plain .ldIA t
  | 0x4F#8 => plain .ldRA t
  | 0x57#8 => plain .ldAI t
  | 0x5F#8 => plain .ldAR t
  | 0x67#8 => plain .rrd t
  | 0x6F#8 => plain .rld t
  | 0xA0#8 => plain .ldi t
  | 0xA1#8 => plain .cpi t
  | 0xA2#8 => plain .ini t
  | 0xA3#8 => plain .outi t
  | 0xA8#8 => plain .ldd t
  | 0xA9#8 => plain .cpd t
  | 0xAA#8 => plain .ind t
  | 0xAB#8 => plain .outd t
  | 0xB0#8 => plain .ldir t
  | 0xB1#8 => plain .cpir t
  | 0xB2#8 => plain .inir t
  | 0xB3#8 => plain .otir t
  | 0xB8#8 => plain .lddr t
  | 0xB9#8 => plain .cpdr t
  | 0xBA#8 => plain .indr t
  | 0xBB#8 => plain .otdr t
  | _ =>
    let y := op.extractLsb' 3 3
    let p := pairOfCode (op.extractLsb' 4 2)
    match op.extractLsb' 6 2, op.extractLsb' 0 3, op.getLsbD 3 with
    | 0b01#2, 0b000#3, _ => plain (.inRegC (inDestOfCode y)) t
    | 0b01#2, 0b001#3, _ =>
      match reg8OfCode y with
      | some r => plain (.outCReg r) t
      | none => .error (.undefinedEd op)
    | 0b01#2, 0b010#3, false => plain (.sbcHlPair p) t
    | 0b01#2, 0b010#3, true => plain (.adcHlPair p) t
    | 0b01#2, 0b011#3, false => withWord t (fun nn => .ldMemNnPair nn p)
    | 0b01#2, 0b011#3, true => withWord t (fun nn => .ldPairMemNn p nn)
    | _, _, _ => .error (.undefinedEd op)

/-- The DD CB sub-page (R118): the displacement d comes before the opcode byte op. -/
def decodeDdCb (t : List Byte) : Decoded :=
  match t with
  | d :: op :: t' =>
    let y := op.extractLsb' 3 3
    match op.extractLsb' 0 3, op.extractLsb' 6 2 with
    | 0b110#3, 0b00#2 =>
      match rotMemIx y d with
      | some i => plain i t'
      | none => .error (.undefinedDdCb op)
    | 0b110#3, 0b01#2 => plain (.bitMemIx y d) t'
    | 0b110#3, 0b10#2 => plain (.resMemIx y d) t'
    | 0b110#3, _ => plain (.setMemIx y d) t'
    | _, _ => .error (.undefinedDdCb op)
  | _ => .error .truncated

/-- The DD page (R117): the byte after DD is op. -/
def decodeDd (op : Byte) (t : List Byte) : Decoded :=
  match op with
  | 0x21#8 => withWord t .ldIxImm
  | 0x22#8 => withWord t .ldMemNnIx
  | 0x2A#8 => withWord t .ldIxMemNn
  | 0x23#8 => plain .incIx t
  | 0x2B#8 => plain .decIx t
  | 0x34#8 => withByte t .incMemIx
  | 0x35#8 => withByte t .decMemIx
  | 0x36#8 => withTwoBytes t .ldMemIxImm
  | 0xE1#8 => plain .popIx t
  | 0xE3#8 => plain .exMemSpIx t
  | 0xE5#8 => plain .pushIx t
  | 0xE9#8 => plain .jpIx t
  | 0xF9#8 => plain .ldSpIx t
  | 0xCB#8 => decodeDdCb t
  | _ =>
    let y := op.extractLsb' 3 3
    match op.extractLsb' 6 2, reg8OfCode y, reg8OfCode (op.extractLsb' 0 3) with
    | 0b00#2, _, _ =>
      if op.extractLsb' 0 4 = 0b1001#4 then plain (.addIxPair (pairXOfCode (op.extractLsb' 4 2))) t
      else .error (.undefinedDd op)
    | 0b01#2, some r, none => withByte t (fun d => .ldRegMemIx r d)
    | 0b01#2, none, some r => withByte t (fun d => .ldMemIxReg d r)
    | 0b10#2, _, none => withByte t (aluMemIx y)
    | _, _, _ => .error (.undefinedDd op)

/-- The FD CB sub-page (R118): the displacement d comes before the opcode byte op. -/
def decodeFdCb (t : List Byte) : Decoded :=
  match t with
  | d :: op :: t' =>
    let y := op.extractLsb' 3 3
    match op.extractLsb' 0 3, op.extractLsb' 6 2 with
    | 0b110#3, 0b00#2 =>
      match rotMemIy y d with
      | some i => plain i t'
      | none => .error (.undefinedFdCb op)
    | 0b110#3, 0b01#2 => plain (.bitMemIy y d) t'
    | 0b110#3, 0b10#2 => plain (.resMemIy y d) t'
    | 0b110#3, _ => plain (.setMemIy y d) t'
    | _, _ => .error (.undefinedFdCb op)
  | _ => .error .truncated

/-- The FD page (R117): the byte after FD is op. -/
def decodeFd (op : Byte) (t : List Byte) : Decoded :=
  match op with
  | 0x21#8 => withWord t .ldIyImm
  | 0x22#8 => withWord t .ldMemNnIy
  | 0x2A#8 => withWord t .ldIyMemNn
  | 0x23#8 => plain .incIy t
  | 0x2B#8 => plain .decIy t
  | 0x34#8 => withByte t .incMemIy
  | 0x35#8 => withByte t .decMemIy
  | 0x36#8 => withTwoBytes t .ldMemIyImm
  | 0xE1#8 => plain .popIy t
  | 0xE3#8 => plain .exMemSpIy t
  | 0xE5#8 => plain .pushIy t
  | 0xE9#8 => plain .jpIy t
  | 0xF9#8 => plain .ldSpIy t
  | 0xCB#8 => decodeFdCb t
  | _ =>
    let y := op.extractLsb' 3 3
    match op.extractLsb' 6 2, reg8OfCode y, reg8OfCode (op.extractLsb' 0 3) with
    | 0b00#2, _, _ =>
      if op.extractLsb' 0 4 = 0b1001#4 then plain (.addIyPair (pairYOfCode (op.extractLsb' 4 2))) t
      else .error (.undefinedFd op)
    | 0b01#2, some r, none => withByte t (fun d => .ldRegMemIy r d)
    | 0b01#2, none, some r => withByte t (fun d => .ldMemIyReg d r)
    | 0b10#2, _, none => withByte t (aluMemIy y)
    | _, _, _ => .error (.undefinedFd op)

/-- Quadrant 00 of the unprefixed page (R114), by its fields y and z. -/
def decodeQuadrant0 (y z : BitVec 3) (t : List Byte) : Decoded :=
  let p := pairOfCode (y.extractLsb' 1 2)
  match z with
  | 0b000#3 =>
    match y with
    | 0b000#3 => plain .nop t
    | 0b001#3 => plain .exAfAf t
    | 0b010#3 => withByte t .djnz
    | 0b011#3 => withByte t .jr
    | 0b100#3 => withByte t .jrNz
    | 0b101#3 => withByte t .jrZ
    | 0b110#3 => withByte t .jrNc
    | _ => withByte t .jrC
  | 0b001#3 => if y.getLsbD 0 then plain (.addHlPair p) t else withWord t (fun nn => .ldPairImm p nn)
  | 0b010#3 =>
    match y with
    | 0b000#3 => plain .ldMemBcA t
    | 0b001#3 => plain .ldAMemBc t
    | 0b010#3 => plain .ldMemDeA t
    | 0b011#3 => plain .ldAMemDe t
    | 0b100#3 => withWord t .ldMemNnHl
    | 0b101#3 => withWord t .ldHlMemNn
    | 0b110#3 => withWord t .ldMemNnA
    | _ => withWord t .ldAMemNn
  | 0b011#3 => if y.getLsbD 0 then plain (.decPair p) t else plain (.incPair p) t
  | 0b100#3 =>
    match reg8OfCode y with
    | some r => plain (.incReg r) t
    | none => plain .incMemHl t
  | 0b101#3 =>
    match reg8OfCode y with
    | some r => plain (.decReg r) t
    | none => plain .decMemHl t
  | 0b110#3 =>
    match reg8OfCode y with
    | some r => withByte t (fun n => .ldRegImm r n)
    | none => withByte t .ldMemHlImm
  | _ =>
    match y with
    | 0b000#3 => plain .rlca t
    | 0b001#3 => plain .rrca t
    | 0b010#3 => plain .rla t
    | 0b011#3 => plain .rra t
    | 0b100#3 => plain .daa t
    | 0b101#3 => plain .cpl t
    | 0b110#3 => plain .scf t
    | _ => plain .ccf t

/-- Quadrant 01 (R114): the register loads, and HALT where both codes are 110. -/
def decodeQuadrant1 (y z : BitVec 3) (t : List Byte) : Decoded :=
  match reg8OfCode y, reg8OfCode z with
  | some r, some r' => plain (.ldRegReg r r') t
  | some r, none => plain (.ldRegMemHl r) t
  | none, some r => plain (.ldMemHlReg r) t
  | none, none => plain .halt t

/-- Quadrant 10 (R114): the arithmetic group on r or (HL). -/
def decodeQuadrant2 (y z : BitVec 3) (t : List Byte) : Decoded :=
  match reg8OfCode z with
  | some r => plain (aluReg y r) t
  | none => plain (aluMemHl y) t

/-- A page after a prefix byte: its first byte is the opcode (R93). -/
def afterPrefix (t : List Byte) (page : Byte → List Byte → Decoded) : Decoded :=
  match t with
  | op :: t' => page op t'
  | [] => .error .truncated

/-- Quadrant 11 (R114), the prefixes CB, DD, ED, FD among it. -/
def decodeQuadrant3 (y z : BitVec 3) (t : List Byte) : Decoded :=
  let q := pairQOfCode (y.extractLsb' 1 2)
  match z with
  | 0b000#3 => plain (.retCond (condOfCode y)) t
  | 0b001#3 =>
    match y with
    | 0b001#3 => plain .ret t
    | 0b011#3 => plain .exx t
    | 0b101#3 => plain .jpHl t
    | 0b111#3 => plain .ldSpHl t
    | _ => plain (.popPair q) t
  | 0b010#3 => withWord t (fun nn => .jpCond (condOfCode y) nn)
  | 0b011#3 =>
    match y with
    | 0b000#3 => withWord t .jp
    | 0b001#3 => afterPrefix t decodeCb
    | 0b010#3 => withByte t .outImmA
    | 0b011#3 => withByte t .inAImm
    | 0b100#3 => plain .exMemSpHl t
    | 0b101#3 => plain .exDeHl t
    | 0b110#3 => plain .di t
    | _ => plain .ei t
  | 0b100#3 => withWord t (fun nn => .callCond (condOfCode y) nn)
  | 0b101#3 =>
    match y with
    | 0b001#3 => withWord t .call
    | 0b011#3 => afterPrefix t decodeDd
    | 0b101#3 => afterPrefix t decodeEd
    | 0b111#3 => afterPrefix t decodeFd
    | _ => plain (.pushPair q) t
  | 0b110#3 => withByte t (aluImm y)
  | _ => plain (.rst (restartOfCode y)) t

/-- The decoder (R93): total on any byte list; the instruction its head encodes and the bytes after it, or the name
of what makes it no instruction (R120). -/
def decode (bytes : List Byte) : Decoded :=
  match bytes with
  | [] => .error .truncated
  | op :: t =>
    match op.extractLsb' 6 2 with
    | 0b00#2 => decodeQuadrant0 (op.extractLsb' 3 3) (op.extractLsb' 0 3) t
    | 0b01#2 => decodeQuadrant1 (op.extractLsb' 3 3) (op.extractLsb' 0 3) t
    | 0b10#2 => decodeQuadrant2 (op.extractLsb' 3 3) (op.extractLsb' 0 3) t
    | _ => decodeQuadrant3 (op.extractLsb' 3 3) (op.extractLsb' 0 3) t

/-! ### The encoder -/

/-- The bytes of an instruction, from the encoding line of its rule. -/
def encode (i : Instr) : List Byte :=
  match i with
  | .ldRegReg r r' => [0b01#2 ++ r.code ++ r'.code]
  | .ldRegImm r n => [0b00#2 ++ r.code ++ 0b110#3, n]
  | .ldRegMemHl r => [0b01#2 ++ r.code ++ 0b110#3]
  | .ldRegMemIx r d => [0xDD#8, 0b01#2 ++ r.code ++ 0b110#3, d]
  | .ldRegMemIy r d => [0xFD#8, 0b01#2 ++ r.code ++ 0b110#3, d]
  | .ldMemHlReg r => [0b01110#5 ++ r.code]
  | .ldMemIxReg d r => [0xDD#8, 0b01110#5 ++ r.code, d]
  | .ldMemIyReg d r => [0xFD#8, 0b01110#5 ++ r.code, d]
  | .ldMemHlImm n => [0x36#8, n]
  | .ldMemIxImm d n => [0xDD#8, 0x36#8, d, n]
  | .ldMemIyImm d n => [0xFD#8, 0x36#8, d, n]
  | .ldAMemBc => [0x0A#8]
  | .ldAMemDe => [0x1A#8]
  | .ldAMemNn nn => [0x3A#8, nnLow nn, nnHigh nn]
  | .ldMemBcA => [0x02#8]
  | .ldMemDeA => [0x12#8]
  | .ldMemNnA nn => [0x32#8, nnLow nn, nnHigh nn]
  | .ldAI => [0xED#8, 0x57#8]
  | .ldAR => [0xED#8, 0x5F#8]
  | .ldIA => [0xED#8, 0x47#8]
  | .ldRA => [0xED#8, 0x4F#8]
  | .ldPairImm dd nn => [0b00#2 ++ dd.code ++ 0b0001#4, nnLow nn, nnHigh nn]
  | .ldIxImm nn => [0xDD#8, 0x21#8, nnLow nn, nnHigh nn]
  | .ldIyImm nn => [0xFD#8, 0x21#8, nnLow nn, nnHigh nn]
  | .ldHlMemNn nn => [0x2A#8, nnLow nn, nnHigh nn]
  | .ldPairMemNn dd nn => [0xED#8, 0b01#2 ++ dd.code ++ 0b1011#4, nnLow nn, nnHigh nn]
  | .ldIxMemNn nn => [0xDD#8, 0x2A#8, nnLow nn, nnHigh nn]
  | .ldIyMemNn nn => [0xFD#8, 0x2A#8, nnLow nn, nnHigh nn]
  | .ldMemNnHl nn => [0x22#8, nnLow nn, nnHigh nn]
  | .ldMemNnPair nn dd => [0xED#8, 0b01#2 ++ dd.code ++ 0b0011#4, nnLow nn, nnHigh nn]
  | .ldMemNnIx nn => [0xDD#8, 0x22#8, nnLow nn, nnHigh nn]
  | .ldMemNnIy nn => [0xFD#8, 0x22#8, nnLow nn, nnHigh nn]
  | .ldSpHl => [0xF9#8]
  | .ldSpIx => [0xDD#8, 0xF9#8]
  | .ldSpIy => [0xFD#8, 0xF9#8]
  | .pushPair qq => [0b11#2 ++ qq.code ++ 0b0101#4]
  | .pushIx => [0xDD#8, 0xE5#8]
  | .pushIy => [0xFD#8, 0xE5#8]
  | .popPair qq => [0b11#2 ++ qq.code ++ 0b0001#4]
  | .popIx => [0xDD#8, 0xE1#8]
  | .popIy => [0xFD#8, 0xE1#8]
  | .exDeHl => [0xEB#8]
  | .exAfAf => [0x08#8]
  | .exx => [0xD9#8]
  | .exMemSpHl => [0xE3#8]
  | .exMemSpIx => [0xDD#8, 0xE3#8]
  | .exMemSpIy => [0xFD#8, 0xE3#8]
  | .ldi => [0xED#8, 0xA0#8]
  | .ldir => [0xED#8, 0xB0#8]
  | .ldd => [0xED#8, 0xA8#8]
  | .lddr => [0xED#8, 0xB8#8]
  | .cpi => [0xED#8, 0xA1#8]
  | .cpir => [0xED#8, 0xB1#8]
  | .cpd => [0xED#8, 0xA9#8]
  | .cpdr => [0xED#8, 0xB9#8]
  | .addReg r => [0b10000#5 ++ r.code]
  | .addImm n => [0xC6#8, n]
  | .addMemHl => [0x86#8]
  | .addMemIx d => [0xDD#8, 0x86#8, d]
  | .addMemIy d => [0xFD#8, 0x86#8, d]
  | .adcReg r => [0b10001#5 ++ r.code]
  | .adcImm n => [0xCE#8, n]
  | .adcMemHl => [0x8E#8]
  | .adcMemIx d => [0xDD#8, 0x8E#8, d]
  | .adcMemIy d => [0xFD#8, 0x8E#8, d]
  | .subReg r => [0b10010#5 ++ r.code]
  | .subImm n => [0xD6#8, n]
  | .subMemHl => [0x96#8]
  | .subMemIx d => [0xDD#8, 0x96#8, d]
  | .subMemIy d => [0xFD#8, 0x96#8, d]
  | .sbcReg r => [0b10011#5 ++ r.code]
  | .sbcImm n => [0xDE#8, n]
  | .sbcMemHl => [0x9E#8]
  | .sbcMemIx d => [0xDD#8, 0x9E#8, d]
  | .sbcMemIy d => [0xFD#8, 0x9E#8, d]
  | .andReg r => [0b10100#5 ++ r.code]
  | .andImm n => [0xE6#8, n]
  | .andMemHl => [0xA6#8]
  | .andMemIx d => [0xDD#8, 0xA6#8, d]
  | .andMemIy d => [0xFD#8, 0xA6#8, d]
  | .orReg r => [0b10110#5 ++ r.code]
  | .orImm n => [0xF6#8, n]
  | .orMemHl => [0xB6#8]
  | .orMemIx d => [0xDD#8, 0xB6#8, d]
  | .orMemIy d => [0xFD#8, 0xB6#8, d]
  | .xorReg r => [0b10101#5 ++ r.code]
  | .xorImm n => [0xEE#8, n]
  | .xorMemHl => [0xAE#8]
  | .xorMemIx d => [0xDD#8, 0xAE#8, d]
  | .xorMemIy d => [0xFD#8, 0xAE#8, d]
  | .cpReg r => [0b10111#5 ++ r.code]
  | .cpImm n => [0xFE#8, n]
  | .cpMemHl => [0xBE#8]
  | .cpMemIx d => [0xDD#8, 0xBE#8, d]
  | .cpMemIy d => [0xFD#8, 0xBE#8, d]
  | .incReg r => [0b00#2 ++ r.code ++ 0b100#3]
  | .incMemHl => [0x34#8]
  | .incMemIx d => [0xDD#8, 0x34#8, d]
  | .incMemIy d => [0xFD#8, 0x34#8, d]
  | .decReg r => [0b00#2 ++ r.code ++ 0b101#3]
  | .decMemHl => [0x35#8]
  | .decMemIx d => [0xDD#8, 0x35#8, d]
  | .decMemIy d => [0xFD#8, 0x35#8, d]
  | .daa => [0x27#8]
  | .cpl => [0x2F#8]
  | .neg => [0xED#8, 0x44#8]
  | .ccf => [0x3F#8]
  | .scf => [0x37#8]
  | .nop => [0x00#8]
  | .halt => [0x76#8]
  | .di => [0xF3#8]
  | .ei => [0xFB#8]
  | .im0 => [0xED#8, 0x46#8]
  | .im1 => [0xED#8, 0x56#8]
  | .im2 => [0xED#8, 0x5E#8]
  | .addHlPair ss => [0b00#2 ++ ss.code ++ 0b1001#4]
  | .adcHlPair ss => [0xED#8, 0b01#2 ++ ss.code ++ 0b1010#4]
  | .sbcHlPair ss => [0xED#8, 0b01#2 ++ ss.code ++ 0b0010#4]
  | .addIxPair pp => [0xDD#8, 0b00#2 ++ pp.code ++ 0b1001#4]
  | .addIyPair rr => [0xFD#8, 0b00#2 ++ rr.code ++ 0b1001#4]
  | .incPair ss => [0b00#2 ++ ss.code ++ 0b0011#4]
  | .incIx => [0xDD#8, 0x23#8]
  | .incIy => [0xFD#8, 0x23#8]
  | .decPair ss => [0b00#2 ++ ss.code ++ 0b1011#4]
  | .decIx => [0xDD#8, 0x2B#8]
  | .decIy => [0xFD#8, 0x2B#8]
  | .rlca => [0x07#8]
  | .rla => [0x17#8]
  | .rrca => [0x0F#8]
  | .rra => [0x1F#8]
  | .rlcReg r => [0xCB#8, 0b00000#5 ++ r.code]
  | .rlcMemHl => [0xCB#8, 0x06#8]
  | .rlcMemIx d => [0xDD#8, 0xCB#8, d, 0x06#8]
  | .rlcMemIy d => [0xFD#8, 0xCB#8, d, 0x06#8]
  | .rlReg r => [0xCB#8, 0b00010#5 ++ r.code]
  | .rlMemHl => [0xCB#8, 0x16#8]
  | .rlMemIx d => [0xDD#8, 0xCB#8, d, 0x16#8]
  | .rlMemIy d => [0xFD#8, 0xCB#8, d, 0x16#8]
  | .rrcReg r => [0xCB#8, 0b00001#5 ++ r.code]
  | .rrcMemHl => [0xCB#8, 0x0E#8]
  | .rrcMemIx d => [0xDD#8, 0xCB#8, d, 0x0E#8]
  | .rrcMemIy d => [0xFD#8, 0xCB#8, d, 0x0E#8]
  | .rrReg r => [0xCB#8, 0b00011#5 ++ r.code]
  | .rrMemHl => [0xCB#8, 0x1E#8]
  | .rrMemIx d => [0xDD#8, 0xCB#8, d, 0x1E#8]
  | .rrMemIy d => [0xFD#8, 0xCB#8, d, 0x1E#8]
  | .slaReg r => [0xCB#8, 0b00100#5 ++ r.code]
  | .slaMemHl => [0xCB#8, 0x26#8]
  | .slaMemIx d => [0xDD#8, 0xCB#8, d, 0x26#8]
  | .slaMemIy d => [0xFD#8, 0xCB#8, d, 0x26#8]
  | .sraReg r => [0xCB#8, 0b00101#5 ++ r.code]
  | .sraMemHl => [0xCB#8, 0x2E#8]
  | .sraMemIx d => [0xDD#8, 0xCB#8, d, 0x2E#8]
  | .sraMemIy d => [0xFD#8, 0xCB#8, d, 0x2E#8]
  | .srlReg r => [0xCB#8, 0b00111#5 ++ r.code]
  | .srlMemHl => [0xCB#8, 0x3E#8]
  | .srlMemIx d => [0xDD#8, 0xCB#8, d, 0x3E#8]
  | .srlMemIy d => [0xFD#8, 0xCB#8, d, 0x3E#8]
  | .rld => [0xED#8, 0x6F#8]
  | .rrd => [0xED#8, 0x67#8]
  | .bitReg b r => [0xCB#8, 0b01#2 ++ b ++ r.code]
  | .bitMemHl b => [0xCB#8, 0b01#2 ++ b ++ 0b110#3]
  | .bitMemIx b d => [0xDD#8, 0xCB#8, d, 0b01#2 ++ b ++ 0b110#3]
  | .bitMemIy b d => [0xFD#8, 0xCB#8, d, 0b01#2 ++ b ++ 0b110#3]
  | .setReg b r => [0xCB#8, 0b11#2 ++ b ++ r.code]
  | .setMemHl b => [0xCB#8, 0b11#2 ++ b ++ 0b110#3]
  | .setMemIx b d => [0xDD#8, 0xCB#8, d, 0b11#2 ++ b ++ 0b110#3]
  | .setMemIy b d => [0xFD#8, 0xCB#8, d, 0b11#2 ++ b ++ 0b110#3]
  | .resReg b r => [0xCB#8, 0b10#2 ++ b ++ r.code]
  | .resMemHl b => [0xCB#8, 0b10#2 ++ b ++ 0b110#3]
  | .resMemIx b d => [0xDD#8, 0xCB#8, d, 0b10#2 ++ b ++ 0b110#3]
  | .resMemIy b d => [0xFD#8, 0xCB#8, d, 0b10#2 ++ b ++ 0b110#3]
  | .jp nn => [0xC3#8, nnLow nn, nnHigh nn]
  | .jpCond cc nn => [0b11#2 ++ cc.code ++ 0b010#3, nnLow nn, nnHigh nn]
  | .jr e => [0x18#8, e]
  | .jrC e => [0x38#8, e]
  | .jrNc e => [0x30#8, e]
  | .jrZ e => [0x28#8, e]
  | .jrNz e => [0x20#8, e]
  | .jpHl => [0xE9#8]
  | .jpIx => [0xDD#8, 0xE9#8]
  | .jpIy => [0xFD#8, 0xE9#8]
  | .djnz e => [0x10#8, e]
  | .call nn => [0xCD#8, nnLow nn, nnHigh nn]
  | .callCond cc nn => [0b11#2 ++ cc.code ++ 0b100#3, nnLow nn, nnHigh nn]
  | .ret => [0xC9#8]
  | .retCond cc => [0b11#2 ++ cc.code ++ 0b000#3]
  | .reti => [0xED#8, 0x4D#8]
  | .retn => [0xED#8, 0x45#8]
  | .rst p => [0b11#2 ++ p.extractLsb' 3 3 ++ 0b111#3]
  | .inAImm n => [0xDB#8, n]
  | .inRegC t => [0xED#8, 0b01#2 ++ t.code ++ 0b000#3]
  | .ini => [0xED#8, 0xA2#8]
  | .inir => [0xED#8, 0xB2#8]
  | .ind => [0xED#8, 0xAA#8]
  | .indr => [0xED#8, 0xBA#8]
  | .outImmA n => [0xD3#8, n]
  | .outCReg r => [0xED#8, 0b01#2 ++ r.code ++ 0b001#3]
  | .outi => [0xED#8, 0xA3#8]
  | .otir => [0xED#8, 0xB3#8]
  | .outd => [0xED#8, 0xAB#8]
  | .otdr => [0xED#8, 0xBB#8]

/-- How many bytes the instruction has (R90, R91). -/
def Instr.length (i : Instr) : Nat := (encode i).length

/-- One of the four prefix values (R91). -/
def isPrefix (op : Byte) : Bool :=
  op == 0xCB#8 || op == 0xDD#8 || op == 0xED#8 || op == 0xFD#8

/-- How many instruction fetch (M1) cycles the instruction has: 2 if it begins with a prefix, else 1
(10_state.md R33). -/
def Instr.fetchCycles (i : Instr) : Nat :=
  match encode i with
  | op :: _ => if isPrefix op then 2 else 1
  | [] => 1

/-! ### The opcode table's words -/

/-- The k lowest bytes of w, the lowest first. -/
def bytesFromLow (k w : Nat) : List Byte :=
  match k with
  | 0 => []
  | k' + 1 => BitVec.ofNat 8 w :: bytesFromLow k' (w / 256)

/-- These bytes are one whole instruction. -/
def isWholeInstruction (bs : List Byte) : Bool :=
  match decode bs with
  | .ok (_, rest) => rest.isEmpty
  | .error _ => false

/-- The first byte is a prefix. -/
def beginsWithPrefix (bs : List Byte) : Bool :=
  match bs with
  | op :: _ => isPrefix op
  | [] => false

/-- The bytes, in fetch order, of a table row's word: spec/opcode_table.json writes the first byte in the highest
bits (POP IY is FDE1), and a word numbered from the first byte up (E1FD) is read too: of the two orders the one that
makes a whole instruction is taken, and where both do, the one that begins with a prefix. Zeros follow, up to four
bytes. Log 25. -/
def tableBytes (nbits w : Nat) : List Byte :=
  let low := bytesFromLow ((nbits + 7) / 8) w
  let high := low.reverse
  let useLow := isWholeInstruction low && (!isWholeInstruction high || (beginsWithPrefix low && !beginsWithPrefix high))
  ((if useLow then low else high) ++ [0#8, 0#8, 0#8, 0#8]).take 4

/-- The instruction the decoder reads from a table row's word. -/
def decodeTableWord (nbits w : Nat) : Option Instr :=
  match decode (tableBytes nbits w) with
  | .ok (i, _) => some i
  | .error _ => none

end Sys2Proof
end

