-- ==== Sys2Proof/Machine/Fetch.lean ====
section
/-! DEFINITION. Fetching an instruction: the bytes at PC (30_encoding.md R90, 20_memory.md R65), what the fetch does to
PC and R (10_state.md R31, R33), and the placing of an instruction where the next step fetches it. -/

namespace Sys2Proof.Machine

/-- The byte that follows those already fetched is an opcode byte, fetched in an M1 cycle: the first byte, and the one
behind a prefix (R33). Every other byte is a memory read. -/
def isOpcodeByte (got : List Byte) : Bool :=
  match got with
  | [] => true
  | [p] => isPrefix p
  | _ => false

/-- One more byte of the instruction is fetched, and PC moves past it (R31). -/
def State.fetchByte (s : State) (opcode : Bool) : State :=
  { (if opcode then s.afterFetch else s.afterRead8 s.pc) with pc := s.pc + 1#16 }

/-- Fetch, behind the bytes already fetched, as many bytes as the instruction has, at most `fuel` (R65, R69, R90): the
instruction, or why there is none, and the state after the fetch. -/
def State.fetchFrom (fuel : Nat) (got : List Byte) (s : State) : Except DecodeError Instr × State :=
  match fuel with
  | 0 => (.error .truncated, s)
  | fuel' + 1 =>
    let bytes := got ++ [s.read8 s.pc]
    let s1 := s.fetchByte (isOpcodeByte got)
    match decode bytes with
    | .ok (i, _) => (.ok i, s1)
    | .error .truncated => State.fetchFrom fuel' bytes s1
    | .error e => (.error e, s1)

/-- Fetch the instruction at PC: no instruction has more than four bytes (R90). Log 18. -/
def State.fetch (s : State) : Except DecodeError Instr × State := s.fetchFrom 4 []

/-! ### Placing an instruction -/

/-- The byte is put at a from outside the machine: not a write cycle, so ROM takes it too. -/
def State.place (s : State) (a : Word) (v : Byte) : State :=
  { s with
    mem := s.mem.write a.toNat v
    memMap := match kindAt s.memMap a with
      | none | some .rom => s.memMap
      | some .device | some .absent => { base := a.toNat, size := 1, kind := .rom } :: s.memMap }

/-- The bytes are put at a and on. -/
def State.placeBytes (s : State) (a : Word) (bs : List Byte) : State :=
  match bs with
  | [] => s
  | v :: t => (s.place a v).placeBytes (a + 1#16) t

end Sys2Proof.Machine
end

