-- ==== Sys2Proof/Machine/Timing.lean ====
section
/-! DEFINITION. How many T states an instruction takes with no Wait states (70_reset_and_hazards.md R600, R601; the
timing column of the opcode table). Where a count depends on a condition or on whether a repeating instruction is done,
it is read off the state the instruction starts from. Nothing but the T-state count and a CTC's clock depends on it.
Log 19. -/

namespace Sys2Proof.Machine

/-- An iteration that repeats takes 21, the last one 16 (R601). -/
def repeatCost (again : Bool) : Nat := if again then 21 else 16

/-- The T states of `i`, begun in state s. -/
def instrCost (i : Instr) (s : State) : Nat :=
  match i with
  | .ldRegReg _ _ => 4
  | .ldRegImm _ _ | .ldRegMemHl _ => 7
  | .ldRegMemIx _ _ | .ldRegMemIy _ _ => 19
  | .ldMemHlReg _ => 7
  | .ldMemIxReg _ _ | .ldMemIyReg _ _ => 19
  | .ldMemHlImm _ => 10
  | .ldMemIxImm _ _ | .ldMemIyImm _ _ => 19
  | .ldAMemBc | .ldAMemDe => 7
  | .ldAMemNn _ => 13
  | .ldMemBcA | .ldMemDeA => 7
  | .ldMemNnA _ => 13
  | .ldAI | .ldAR | .ldIA | .ldRA => 9
  | .ldPairImm _ _ => 10
  | .ldIxImm _ | .ldIyImm _ => 14
  | .ldHlMemNn _ => 16
  | .ldPairMemNn _ _ | .ldIxMemNn _ | .ldIyMemNn _ => 20
  | .ldMemNnHl _ => 16
  | .ldMemNnPair _ _ | .ldMemNnIx _ | .ldMemNnIy _ => 20
  | .ldSpHl => 6
  | .ldSpIx | .ldSpIy => 10
  | .pushPair _ => 11
  | .pushIx | .pushIy => 15
  | .popPair _ => 10
  | .popIx | .popIy => 14
  | .exDeHl | .exAfAf | .exx => 4
  | .exMemSpHl => 19
  | .exMemSpIx | .exMemSpIy => 23
  | .ldi => 16
  | .ldir => repeatCost (s.bc != 1#16)
  | .ldd => 16
  | .lddr => repeatCost (s.bc != 1#16)
  | .cpi => 16
  | .cpir => repeatCost (s.bc != 1#16 && s.regs.a != s.read8 s.hl)
  | .cpd => 16
  | .cpdr => repeatCost (s.bc != 1#16 && s.regs.a != s.read8 s.hl)
  | .addReg _ => 4
  | .addImm _ | .addMemHl => 7
  | .addMemIx _ | .addMemIy _ => 19
  | .adcReg _ => 4
  | .adcImm _ | .adcMemHl => 7
  | .adcMemIx _ | .adcMemIy _ => 19
  | .subReg _ => 4
  | .subImm _ | .subMemHl => 7
  | .subMemIx _ | .subMemIy _ => 19
  | .sbcReg _ => 4
  | .sbcImm _ | .sbcMemHl => 7
  | .sbcMemIx _ | .sbcMemIy _ => 19
  | .andReg _ => 4
  | .andImm _ | .andMemHl => 7
  | .andMemIx _ | .andMemIy _ => 19
  | .orReg _ => 4
  | .orImm _ | .orMemHl => 7
  | .orMemIx _ | .orMemIy _ => 19
  | .xorReg _ => 4
  | .xorImm _ | .xorMemHl => 7
  | .xorMemIx _ | .xorMemIy _ => 19
  | .cpReg _ => 4
  | .cpImm _ | .cpMemHl => 7
  | .cpMemIx _ | .cpMemIy _ => 19
  | .incReg _ => 4
  | .incMemHl => 11
  | .incMemIx _ | .incMemIy _ => 23
  | .decReg _ => 4
  | .decMemHl => 11
  | .decMemIx _ | .decMemIy _ => 23
  | .daa | .cpl => 4
  | .neg => 8
  | .ccf | .scf | .nop | .halt | .di | .ei => 4
  | .im0 | .im1 | .im2 => 8
  | .addHlPair _ => 11
  | .adcHlPair _ | .sbcHlPair _ | .addIxPair _ | .addIyPair _ => 15
  | .incPair _ => 6
  | .incIx | .incIy => 10
  | .decPair _ => 6
  | .decIx | .decIy => 10
  | .rlca | .rla | .rrca | .rra => 4
  | .rlcReg _ => 8
  | .rlcMemHl => 15
  | .rlcMemIx _ | .rlcMemIy _ => 23
  | .rlReg _ => 8
  | .rlMemHl => 15
  | .rlMemIx _ | .rlMemIy _ => 23
  | .rrcReg _ => 8
  | .rrcMemHl => 15
  | .rrcMemIx _ | .rrcMemIy _ => 23
  | .rrReg _ => 8
  | .rrMemHl => 15
  | .rrMemIx _ | .rrMemIy _ => 23
  | .slaReg _ => 8
  | .slaMemHl => 15
  | .slaMemIx _ | .slaMemIy _ => 23
  | .sraReg _ => 8
  | .sraMemHl => 15
  | .sraMemIx _ | .sraMemIy _ => 23
  | .srlReg _ => 8
  | .srlMemHl => 15
  | .srlMemIx _ | .srlMemIy _ => 23
  | .rld | .rrd => 18
  | .bitReg _ _ => 8
  | .bitMemHl _ => 12
  | .bitMemIx _ _ | .bitMemIy _ _ => 20
  | .setReg _ _ => 8
  | .setMemHl _ => 15
  | .setMemIx _ _ | .setMemIy _ _ => 23
  | .resReg _ _ => 8
  | .resMemHl _ => 15
  | .resMemIx _ _ | .resMemIy _ _ => 23
  | .jp _ | .jpCond _ _ => 10
  | .jr _ => 12
  | .jrC _ => if s.regs.f.c then 12 else 7
  | .jrNc _ => if s.regs.f.c then 7 else 12
  | .jrZ _ => if s.regs.f.z then 12 else 7
  | .jrNz _ => if s.regs.f.z then 7 else 12
  | .jpHl => 4
  | .jpIx | .jpIy => 8
  | .djnz _ => if s.regs.b = 1#8 then 9 else 13
  | .call _ => 17
  | .callCond cc _ => if condHolds cc s.regs.f then 17 else 10
  | .ret => 10
  | .retCond cc => if condHolds cc s.regs.f then 11 else 5
  | .reti | .retn => 14
  | .rst _ | .inAImm _ => 11
  | .inRegC _ => 12
  | .ini => 16
  | .inir => repeatCost (s.regs.b != 1#8)
  | .ind => 16
  | .indr => repeatCost (s.regs.b != 1#8)
  | .outImmA _ => 11
  | .outCReg _ => 12
  | .outi => 16
  | .otir => repeatCost (s.regs.b != 1#8)
  | .outd => 16
  | .otdr => repeatCost (s.regs.b != 1#8)

/-- The NOP of the Halt state (R530). -/
def haltCost : Nat := 4

/-- Accepting an NMI (R490). -/
def nmiCost : Nat := 11

/-- The Wait states an interrupt acknowledge includes (R600). -/
def ackWaits : Nat := 2

/-- Accepting a maskable interrupt in mode 0, by a restart, or in mode 1 (R506, R508). -/
def restartCost : Nat := 13

/-- Accepting a maskable interrupt in mode 2 (R510). -/
def mode2Cost : Nat := 19

/-- The internal T cycles after RESET is released (R570). The clocks while it is held, at least three, are in the record's
waitStates (log 31). -/
def resetCost : Nat := 2

end Sys2Proof.Machine
end

