-- ==== Sys2Proof/Machine/Interrupts.lean ====
section
/-! DEFINITION. The instruction boundary (60_exceptions.md R482 to R510, 70_reset_and_hazards.md R590): what the
environment has done arrives, then the first of reset, bus grant, NMI and INT that applies is acted on (R488). -/

namespace Sys2Proof.Machine

/-! ### What arrives (R482) -/

/-- What the environment does at the next boundary; an empty queue means nothing. Log 11. -/
def State.nextInput (s : State) : BoundaryInput :=
  match s.inputs with
  | b :: _ => b
  | [] => BoundaryInput.quiet

/-- The events at the devices' outer pins, in order. -/
def State.deviceEvents (s : State) (es : List DeviceEvent) : State := es.foldl State.applyEvent s

/-- The record is used up: its Wait states pass, its events reach the devices, an NMI edge is latched (R36, R492). -/
def State.arrive (s : State) (b : BoundaryInput) : State :=
  { (s.elapse b.waitStates).deviceEvents b.events with
    nmiPending := s.nmiPending || b.nmiEdge, inputs := s.inputs.tail }

/-! ### RESET in the middle of an instruction or of an interrupt's acceptance (R570) -/

/-- What began in s and would have ended in u is abandoned: each byte it stores has been stored or not (R570, 93 U9),
and its I/O cycle, its acknowledge and the replies it used up likewise, as free values say. The registers need no such
choice: RESET sets or draws them all. Log 13. -/
def State.abandoned (s u : State) : State :=
  let didIo := Config.freeBit (u.draws + 65536)
  { u with
    mem := Memory.mixed (fun a => Config.freeBit (u.draws + a)) s.mem u.mem
    devices := if didIo then u.devices else s.devices
    ioReplies := if didIo then u.ioReplies else s.ioReplies
    memReplies := if didIo then u.memReplies else s.memReplies
    busLog := if didIo then u.busLog else s.busLog
    draws := u.draws + 65537 }

/-- What the instruction that began in s leaves, u unless RESET abandons it. -/
def State.cutShort (s u : State) : State :=
  if s.nextInput.reset && s.nextInput.abandons then s.abandoned u else u

/-- What the acceptance of an interrupt that began in s leaves, u unless RESET abandons it. -/
def State.accepted (s : State) (b : BoundaryInput) (u : State) : State :=
  if b.resetsResponse then (s.abandoned u).hardReset.elapse resetCost else u

/-! ### Bus grant (R75, R486) -/

/-- The CPU floats its buses: it executes nothing and changes nothing of its own; the other master does what the
record says. -/
def State.grantBus (s : State) (l : List DmaAccess) : State := State.dma { s with busGranted := true } l

/-! ### Accepting an interrupt -/

/-- Accepting an NMI (R490). -/
def State.acceptNmi (s : State) : State := ((s.enterInterrupt .nonMaskable 0#8).callTo nmiEntry).elapse nmiCost

/-- INT is active: the daisy chain or a device outside it holds it (R516, R520). -/
def State.intActive (s : State) (b : BoundaryInput) : Bool := b.intLine || s.chainRequests

/-- The mode 0 response to the byte v (R506). A restart is always allowed. A byte that MODE0_INSTR allows and that is a
whole instruction is executed, PC not moved past it; this acceptance has no boundary of its own inside it (R513), so
that an EI or DI inhibits nothing; that, and the two T states it takes beyond the fetched instruction's, is DESIGN
CHOICE, log 8. Any other byte is refused (log 8). -/
def State.respondMode0 (s : State) (v : Byte) : Result :=
  if isRestart v then .next ((s.callTo (mode0Entry v)).elapse restartCost)
  else if v ∈ s.params.mode0Extra then
    match decode [v] with
    | .ok (i, _) =>
      match exec i s with
      | .next u => .next (State.elapse { u with noSample := false } (instrCost i s + ackWaits))
      | .fault e => .fault e
      | .refused e => .refused e
    | .error _ => .refused (.mode0Instruction v)
  else .refused (.mode0Instruction v)

/-- Accepting a maskable interrupt (R502): the acknowledge cycle delivers a byte, the mode says what is done with it
(R506, R508, R510). -/
def State.acceptInt (s : State) (busByte : Byte) : Result :=
  let v := s.ackByte busByte
  let s1 := s.enterInterrupt .maskable busByte
  match s.im with
  | .mode0 => s1.respondMode0 v
  | .mode1 => .next ((s1.callTo mode1Entry).elapse restartCost)
  | .mode2 => .next ((s1.callVector v).elapse mode2Cost)

/-! ### The boundary -/

/-- The last three lines of R488: NMI, then INT, then nothing; and the EI and DI shadow (R590). -/
def State.sampleInterrupts (s : State) (b : BoundaryInput) : Result :=
  if s.noSample then .next { s with noSample := false }
  else if s.nmiPending then .next (s.accepted b s.acceptNmi)
  else if s.iff1 && s.intActive b then
    match s.acceptInt b.busByte with
    | .next u => .next (s.accepted b u)
    | .fault e => .fault e
    | .refused e => .refused e
  else .next s

/-- The boundary for the record b, after it has arrived (R488). A RESET takes the two T cycles after its release (R570).
How many clocks it is held, at least three, the spec leaves to the environment: they pass with the record's waitStates,
and the model adds none of its own, DESIGN CHOICE, log 31. -/
def State.decideBoundary (s : State) (b : BoundaryInput) : Result :=
  if b.reset then .next (s.hardReset.elapse resetCost)
  else if b.busreq then .next (s.grantBus b.dma)
  else State.sampleInterrupts { s with busGranted := false } b

/-- An instruction boundary. -/
def State.boundary (s : State) : Result := (s.arrive s.nextInput).decideBoundary s.nextInput

end Sys2Proof.Machine
end

