-- ==== Sys2Proof/Machine/Step.lean ====
section
/-! DEFINITION. One step: an instruction, or the NOP of the Halt state, or a turn with the bus granted away; then the
instruction boundary that follows it (60_exceptions.md R484, R488, R530). -/

namespace Sys2Proof.Machine

/-- The boundary after an instruction that began in s and takes t T states, if it has a next state. -/
def boundaryAfter (t : Nat) (s : State) (r : Host.Outcome State Fault Refusal) : Host.Outcome State Fault Refusal :=
  match r with
  | .next u => ((s.cutShort u).elapse t).boundary
  | .fault e => .fault e
  | .refused e => .refused e

/-- Fetch, decode, execute; then the boundary. -/
def stepInstruction (s : State) : Host.Outcome State Fault Refusal :=
  match s.fetch with
  | (.ok i, u) => boundaryAfter (instrCost i u) u (exec i u)
  | (.error e, _) => .refused (.undefinedEncoding e)

/-- One step. -/
def step (s : State) : Host.Outcome State Fault Refusal :=
  if s.busGranted then s.boundary
  else if s.halted then (s.afterFetch.elapse haltCost).boundary
  else stepInstruction s

/-- s with the instruction of an opcode-table word where the next step fetches: the bytes are at PC, nothing keeps the
CPU from fetching there, and no other bus master changes them meanwhile. It stands for a program being loaded from
outside (log 26). -/
def State.withFetchWord (s : State) (nbits w : Nat) : State :=
  State.placeBytes { s with halted := false, busGranted := false, cycleDma := [] } s.pc (tableBytes nbits w)

end Sys2Proof.Machine
end

