-- ==== Sys2Proof/Safety.lean ====
section
/-! DEFINITION. What a good state and a safe run are. The Z80 has no trap and no fault (60_exceptions.md R480): a run is
safe as long as no step is refused, and what every step keeps is `StateOk`. -/

namespace Sys2Proof.Machine

/-- A PIO vector register has bit 0 = 0 (R553). -/
def PioPort.ok (p : PioPort) : Bool := !p.vector.getLsbD 0

/-- A CTC vector register holds only its upper five bits (R565), and a prescaler is below its largest factor. -/
def Ctc.ok (c : Ctc) : Bool :=
  c.vector &&& 0x07#8 == 0#8 && decide (c.ch0.prescale < 256) && decide (c.ch1.prescale < 256)
    && decide (c.ch2.prescale < 256) && decide (c.ch3.prescale < 256)

def Device.ok (d : Device) : Bool :=
  match d with
  | .ctc c => c.ok
  | .pio p => p.portA.ok && p.portB.ok

/-- What every step keeps: memory is in canonical form, so that equal memories are equal data; IFF1 is never set while
IFF2 is clear (R34); no_sample outlives its boundary only while the bus is granted away (R37, R590); the devices'
registers hold what their rules allow. -/
structure StateOk (s : State) : Prop where
  memory : s.mem.wf = true
  enables : s.iff1 = true → s.iff2 = true
  shadow : s.noSample = true → s.busGranted = true
  devices : ∀ d ∈ s.devices, d.ok = true

/-! ### Words for what an instruction does to memory, when no other bus master acts meanwhile -/

/-- t is u but for one write cycle of v to a: memory holds v there if a is RAM, and every other address (and a itself
where it is no RAM) holds what it held. -/
def TookByte (u t : State) (a : Word) (v : Byte) : Prop :=
  t = { u with mem := t.mem, busLog := .memWrite a v :: u.busLog } ∧ t.mem.wf = true ∧
    ∀ b, t.byteAt b = if b = a ∧ kindAt u.memMap a = none then v else u.byteAt b

/-- t is u but for two write cycles, v to a and then w to a', two different addresses. -/
def TookTwo (u t : State) (a : Word) (v : Byte) (a' : Word) (w : Byte) : Prop :=
  t = { u with mem := t.mem, busLog := .memWrite a' w :: .memWrite a v :: u.busLog } ∧ t.mem.wf = true ∧
    ∀ b, t.byteAt b =
      if b = a ∧ kindAt u.memMap a = none then v
      else if b = a' ∧ kindAt u.memMap a' = none then w
      else u.byteAt b

/-- The address is RAM or ROM. -/
def State.isPlain (s : State) (a : Word) : Prop := kindAt s.memMap a = none ∨ kindAt s.memMap a = some .rom

/-- The bus cycles that fetch an instruction's bytes at pc, the newest first: the first byte, and the one behind a
prefix, in opcode fetch cycles, the others in memory reads (10_state.md R33). -/
def fetchLog (pc : Word) (bytes : List Byte) : List BusEvent :=
  (bytes.mapIdx fun k v =>
    if isOpcodeByte (bytes.take k) then BusEvent.opFetch (pc + BitVec.ofNat 16 k) v
    else BusEvent.memRead (pc + BitVec.ofNat 16 k) v).reverse

/-- What the fetch of i at PC leaves, when its bytes are RAM or ROM and no other bus master acts meanwhile. -/
def State.fetched (s : State) (i : Instr) : State :=
  { s with
    pc := s.pc + BitVec.ofNat 16 i.length
    r := refreshed i.fetchCycles s.r
    devices := s.devices.map Device.m1
    busLog := fetchLog s.pc (encode i) ++ s.busLog }

/-- The outcome is a next state. -/
def Completes (r : Host.Outcome State Fault Refusal) : Prop := ∃ t, r = .next t

/-- k steps from s, all of which complete. -/
def SafeRun (k : Nat) (s : State) : Prop :=
  match k with
  | 0 => True
  | k' + 1 => ∃ t, step s = .next t ∧ SafeRun k' t

end Sys2Proof.Machine
end

