-- ==== Sys2Proof/Certificates/Slice0/Obligations.lean ====
section
/-! DEFINITION. The statements for the provers. First the words they share, then one def per statement: encoding; fetch
and step; the instruction boundary; the whole machine; the functions of Flags.lean; memory and I/O cycles; the families
of the opcode table; the platform devices. Each docstring names the rules of spec/ it formalises, and says where a
clause is the model's choice. -/

open Sys2Proof Sys2Proof.Machine

/-! ### Words shared by the statements -/

namespace Sys2Proof.Machine

/-- The second bytes that R116 defines after ED. -/
def definedAfterEd : List Byte :=
  [0x40#8, 0x48#8, 0x50#8, 0x58#8, 0x60#8, 0x68#8, 0x70#8, 0x78#8, 0x41#8, 0x49#8, 0x51#8, 0x59#8, 0x61#8, 0x69#8,
    0x79#8, 0x42#8, 0x52#8, 0x62#8, 0x72#8, 0x4A#8, 0x5A#8, 0x6A#8, 0x7A#8, 0x43#8, 0x53#8, 0x63#8, 0x73#8, 0x4B#8,
    0x5B#8, 0x6B#8, 0x7B#8, 0x44#8, 0x45#8, 0x4D#8, 0x46#8, 0x56#8, 0x5E#8, 0x47#8, 0x4F#8, 0x57#8, 0x5F#8, 0x67#8,
    0x6F#8, 0xA0#8, 0xA1#8, 0xA2#8, 0xA3#8, 0xA8#8, 0xA9#8, 0xAA#8, 0xAB#8, 0xB0#8, 0xB1#8, 0xB2#8, 0xB3#8, 0xB8#8,
    0xB9#8, 0xBA#8, 0xBB#8]

/-- The second bytes that R117 defines after DD and after FD, CB apart. -/
def definedAfterIndex : List Byte :=
  [0x09#8, 0x19#8, 0x29#8, 0x39#8, 0x21#8, 0x22#8, 0x2A#8, 0x23#8, 0x2B#8, 0x34#8, 0x35#8, 0x36#8, 0x46#8, 0x4E#8,
    0x56#8, 0x5E#8, 0x66#8, 0x6E#8, 0x7E#8, 0x70#8, 0x71#8, 0x72#8, 0x73#8, 0x74#8, 0x75#8, 0x77#8, 0x86#8, 0x8E#8,
    0x96#8, 0x9E#8, 0xA6#8, 0xAE#8, 0xB6#8, 0xBE#8, 0xE1#8, 0xE3#8, 0xE5#8, 0xE9#8, 0xF9#8]

/-- The fourth bytes that R118 defines after DD CB d and FD CB d: bits 2 to 0 are 110, and 36 is not one of them. -/
def definedAfterIndexCb (op : Byte) : Prop := op &&& 0x07#8 = 0x06#8 ∧ op ≠ 0x36#8

/-- The instruction writes a flag (R45): the rows of the table, and POP AF and EX AF,AF'. -/
def writesFlags (i : Instr) : Bool :=
  match i with
  | .ldAI | .ldAR | .popPair .af | .exAfAf => true
  | .ldi | .ldir | .ldd | .lddr | .cpi | .cpir | .cpd | .cpdr => true
  | .addReg _ | .addImm _ | .addMemHl | .addMemIx _ | .addMemIy _ => true
  | .adcReg _ | .adcImm _ | .adcMemHl | .adcMemIx _ | .adcMemIy _ => true
  | .subReg _ | .subImm _ | .subMemHl | .subMemIx _ | .subMemIy _ => true
  | .sbcReg _ | .sbcImm _ | .sbcMemHl | .sbcMemIx _ | .sbcMemIy _ => true
  | .andReg _ | .andImm _ | .andMemHl | .andMemIx _ | .andMemIy _ => true
  | .orReg _ | .orImm _ | .orMemHl | .orMemIx _ | .orMemIy _ => true
  | .xorReg _ | .xorImm _ | .xorMemHl | .xorMemIx _ | .xorMemIy _ => true
  | .cpReg _ | .cpImm _ | .cpMemHl | .cpMemIx _ | .cpMemIy _ => true
  | .incReg _ | .incMemHl | .incMemIx _ | .incMemIy _ | .decReg _ | .decMemHl | .decMemIx _ | .decMemIy _ => true
  | .daa | .cpl | .neg | .ccf | .scf => true
  | .addHlPair _ | .adcHlPair _ | .sbcHlPair _ | .addIxPair _ | .addIyPair _ => true
  | .rlca | .rla | .rrca | .rra | .rld | .rrd => true
  | .rlcReg _ | .rlcMemHl | .rlcMemIx _ | .rlcMemIy _ | .rlReg _ | .rlMemHl | .rlMemIx _ | .rlMemIy _ => true
  | .rrcReg _ | .rrcMemHl | .rrcMemIx _ | .rrcMemIy _ | .rrReg _ | .rrMemHl | .rrMemIx _ | .rrMemIy _ => true
  | .slaReg _ | .slaMemHl | .slaMemIx _ | .slaMemIy _ | .sraReg _ | .sraMemHl | .sraMemIx _ | .sraMemIy _ => true
  | .srlReg _ | .srlMemHl | .srlMemIx _ | .srlMemIy _ => true
  | .bitReg _ _ | .bitMemHl _ | .bitMemIx _ _ | .bitMemIy _ _ => true
  | .inRegC _ | .ini | .inir | .ind | .indr | .outi | .otir | .outd | .otdr => true
  | _ => false

/-- The twelve instructions that reach the I/O space (R61). -/
def usesIoSpace (i : Instr) : Bool :=
  match i with
  | .inAImm _ | .inRegC _ | .ini | .inir | .ind | .indr | .outImmA _ | .outCReg _ | .outi | .otir | .outd | .otdr => true
  | _ => false

/-- Its T states depend on a condition or on whether a repeating instruction is done (R601). -/
def variesInTime (i : Instr) : Bool :=
  match i with
  | .jrC _ | .jrNc _ | .jrZ _ | .jrNz _ | .djnz _ | .callCond _ _ | .retCond _ => true
  | .ldir | .lddr | .cpir | .cpdr | .inir | .indr | .otir | .otdr => true
  | _ => false

/-- The five operand forms of an accumulator operation (R215): the instruction, on each of them, ends in the state
`result` gives for the operand's value and the state the operand's read leaves. -/
def OnEveryOperand (s : State) (reg : Reg8 → Instr) (imm : Byte → Instr) (hl : Instr) (ix iy : Byte → Instr)
    (result : State → Byte → State) : Prop :=
  let onMemory (i : Instr) (a : Word) : Prop := exec i s = .next (result (s.afterRead8 a) (s.read8 a))
  (∀ r, exec (reg r) s = .next (result s (s.getReg r))) ∧
  (∀ n, exec (imm n) s = .next (result s n)) ∧
  onMemory hl (s.regs.h ++ s.regs.l) ∧
  (∀ d, onMemory (ix d) (s.ix + d.signExtend 16)) ∧
  (∀ d, onMemory (iy d) (s.iy + d.signExtend 16))

/-- The three memory forms of an operation that reads a byte, changes it and writes it back (R66, R215): from the byte
m that was read, `value m` is stored, and the rest of the state the read leaves, u, becomes `rest u m`. -/
def OnEveryMemoryOperand (s : State) (hl : Instr) (ix iy : Byte → Instr) (value : Byte → Byte)
    (rest : State → Byte → State) : Prop :=
  let onMemory (i : Instr) (a : Word) : Prop :=
    ∃ t, exec i s = .next t ∧ TookByte (rest (s.afterRead8 a) (s.read8 a)) t a (value (s.read8 a))
  onMemory hl (s.regs.h ++ s.regs.l) ∧
  (∀ d, onMemory (ix d) (s.ix + d.signExtend 16)) ∧
  (∀ d, onMemory (iy d) (s.iy + d.signExtend 16))

/-- Both digits of the byte are decimal (packed BCD). -/
def isBcd (v : Byte) : Prop := v.toNat / 16 ≤ 9 ∧ v.toNat % 16 ≤ 9

/-- The number a packed BCD byte stands for. -/
def bcdValue (v : Byte) : Nat := 10 * (v.toNat / 16) + v.toNat % 16

/-- The number of count pulses a time constant or a down-counter stands for: 00H is 256 (R561). -/
def countOf (v : Byte) : Nat := if v = 0#8 then 256 else v.toNat

/-- What R570 says RESET sets. -/
def WasReset (t : State) : Prop :=
  t.pc = 0x0000#16 ∧ t.i = 0x00#8 ∧ t.r = 0x00#8 ∧ t.iff1 = false ∧ t.iff2 = false ∧ t.im = .mode0 ∧
  t.halted = false ∧ t.nmiPending = false ∧ t.noSample = false ∧ t.busGranted = false

/-- The state at the boundary's decision: the next input has arrived (R482). -/
def State.atBoundary (s : State) : State := s.arrive s.nextInput

/-- The bytes of i stand in RAM or ROM from PC on, addresses modulo 65536 (R64, R65). -/
def State.HoldsAtPc (s : State) (i : Instr) : Prop :=
  ∀ (k : Nat) (h : k < (encode i).length),
    s.isPlain (s.pc + BitVec.ofNat 16 k) ∧ s.byteAt (s.pc + BitVec.ofNat 16 k) = (encode i)[k]

/-- PC is on the stack: memory after u, with pc pushed below sp where that is RAM (R422). -/
def PushedOn (u t : State) (sp pc : Word) : Prop :=
  ∀ a, t.byteAt a =
    if a = sp - 2#16 ∧ kindAt u.memMap (sp - 2#16) = none then pc.extractLsb' 0 8
    else if a = sp - 1#16 ∧ kindAt u.memMap (sp - 1#16) = none then pc.extractLsb' 8 8
    else u.byteAt a

/-- What taking an interrupt leaves alone of the CPU's state, and what both kinds do to it (R490, R502): u is the state
before it, t the one after it. -/
def InterruptTaken (u t : State) : Prop :=
  t.iff1 = false ∧ t.halted = false ∧ t.noSample = false ∧ t.busGranted = false ∧
  t.r = u.r.extractLsb' 7 1 ++ (u.r.extractLsb' 0 7 + 1#7) ∧ t.sp = u.sp - 2#16 ∧
  t.regs = u.regs ∧ t.alt = u.alt ∧ t.ix = u.ix ∧ t.iy = u.iy ∧ t.i = u.i ∧ t.im = u.im ∧
  t.memMap = u.memMap ∧ t.params = u.params ∧ t.inputs = u.inputs.tail

end Sys2Proof.Machine

/-! ### Encoding -/

/-- Decoding what `encode` writes gives the instruction back, whatever bytes follow (R93, R114 to R118). -/
def Obligations.DecodeInvertsEncode : Prop :=
  ∀ (i : Instr) (rest : List Byte), WellFormed i = true → decode (encode i ++ rest) = .ok (i, rest)

/-- Every byte list that decodes is the encoding of the instruction it decodes to, followed by the rest: no byte
sequence has two meanings, and no bit of an instruction is ignored (R93, R121). -/
def Obligations.EveryDecodedWordIsAnEncoding : Prop :=
  ∀ (bytes : List Byte) (i : Instr) (rest : List Byte),
    decode bytes = .ok (i, rest) → WellFormed i = true ∧ bytes = encode i ++ rest

/-- The undefined encodings are exactly those that the page lists of R114 to R118 leave out, and a step at one of them
is refused: that the model refuses is the spec's own decision (R120, 92 D1; log 7). -/
def Obligations.UndefinedEncodingsAreRefused : Prop :=
  (∀ op t, (∃ e, decode (0xCB#8 :: op :: t) = .error e) ↔ 0x30#8 ≤ op ∧ op ≤ 0x37#8) ∧
  (∀ op x y t, (∃ e, decode (0xED#8 :: op :: x :: y :: t) = .error e) ↔ op ∉ definedAfterEd) ∧
  (∀ p op x y t, p = 0xDD#8 ∨ p = 0xFD#8 → op ≠ 0xCB#8 →
    ((∃ e, decode (p :: op :: x :: y :: t) = .error e) ↔ op ∉ definedAfterIndex)) ∧
  (∀ p d op t, p = 0xDD#8 ∨ p = 0xFD#8 →
    ((∃ e, decode (p :: 0xCB#8 :: d :: op :: t) = .error e) ↔ ¬ definedAfterIndexCb op)) ∧
  (∀ op x y t, op ∉ [0xCB#8, 0xDD#8, 0xED#8, 0xFD#8] → ∃ i rest, decode (op :: x :: y :: t) = .ok (i, rest)) ∧
  (∀ s e u, s.busGranted = false → s.halted = false → s.fetch = (.error e, u) →
    step s = .refused (.undefinedEncoding e)) ∧
  (∀ s e, s.busGranted = false → s.halted = false → s.Undisturbed →
    (∀ k, k < 4 → s.isPlain (s.pc + BitVec.ofNat 16 k)) →
    decode [s.byteAt s.pc, s.byteAt (s.pc + 1#16), s.byteAt (s.pc + 2#16), s.byteAt (s.pc + 3#16)] = .error e →
    ∃ e', step s = .refused (.undefinedEncoding e'))

/-- Words written out from the spec's own examples, one for each family of the opcode table, decode to the instruction
they stand for. -/
def Obligations.DecodesTheSpecsExamples : Prop :=
  decode [0xDD#8, 0x46#8, 0x19#8] = .ok (.ldRegMemIx .b 0x19#8, []) ∧
  decode [0xED#8, 0x4B#8, 0x30#8, 0x21#8] = .ok (.ldPairMemNn .bc 0x2130#16, []) ∧
  decode [0xED#8, 0xB0#8] = .ok (.ldir, []) ∧
  decode [0xFD#8, 0x9E#8, 0xFE#8] = .ok (.sbcMemIy 0xFE#8, []) ∧
  decode [0x27#8] = .ok (.daa, []) ∧
  decode [0xED#8, 0x72#8] = .ok (.sbcHlPair .sp, []) ∧
  decode [0xDD#8, 0xCB#8, 0x02#8, 0x0E#8] = .ok (.rrcMemIx 0x02#8, []) ∧
  decode [0xCB#8, 0x66#8] = .ok (.bitMemHl 4#3, []) ∧
  decode [0xDC#8, 0x35#8, 0x21#8] = .ok (.callCond .c 0x2135#16, []) ∧
  decode [0xED#8, 0x51#8] = .ok (.outCReg .d, [])

/-! ### Fetch and step -/

/-- If the bytes from PC on are an instruction's encoding, the fetch finds that instruction (R31, R65, R90), one bus
cycle for each of its bytes and no other (R69); PC is past it and the low seven bits of R have counted its M1 cycles,
two behind a prefix byte, else one (R33). Where another bus master acts inside the fetch see MemoryCycles. That the
count is exact, with bit 7 kept, is R_MODEL = exact (log 14). -/
def Obligations.FetchFindsTheInstruction : Prop :=
  (∀ (s : State) (i : Instr), WellFormed i = true → s.Undisturbed → s.HoldsAtPc i →
    s.fetch = (.ok i, s.fetched i) ∧
    s.fetched i =
      { s with
        pc := s.pc + BitVec.ofNat 16 (encode i).length
        r := s.r.extractLsb' 7 1 ++ (s.r.extractLsb' 0 7 + BitVec.ofNat 7 i.fetchCycles)
        devices := s.devices.map Device.m1
        busLog := fetchLog s.pc (encode i) ++ s.busLog }) ∧
  (∀ i : Instr, WellFormed i = true →
    i.fetchCycles = if (encode i).head? ∈ [some 0xCB#8, some 0xDD#8, some 0xED#8, some 0xFD#8] then 2 else 1) ∧
  (∀ (pc : Word) (bs : List Byte) (k : Nat) (h : k < bs.length),
    (fetchLog pc bs).length = bs.length ∧
    (fetchLog pc bs)[bs.length - 1 - k]? =
      some (if k = 0 ∨ (k = 1 ∧ isPrefix bs[0] = true) then .opFetch (pc + BitVec.ofNat 16 k) bs[k]
        else .memRead (pc + BitVec.ofNat 16 k) bs[k]))

/-- A step, when the CPU has the bus and is not halted, runs the instruction fetched on the state the fetch leaves; then
its T states pass and the boundary follows. Of its T states (R600, R601): they are the same from every state, but for
the conditional jumps, calls and returns and the repeating instructions. What it is that they pass: each is a period of
the clock of every CTC, and of nothing else (R561, R600). That they pass, and clock the CTCs, after the instruction and
before its boundary is log 19 (DESIGN CHOICE); that R has counted the fetch exactly is R_MODEL (log 14). For a RESET
that abandons the instruction see ResetActsAtAnyTime. -/
def Obligations.StepRunsTheDecodedInstruction : Prop :=
  (∀ (s u v : State) (i : Instr), s.busGranted = false → s.halted = false →
    (s.nextInput.reset && s.nextInput.abandons) = false → s.fetch = (.ok i, u) → exec i u = .next v →
    step s = (v.elapse (instrCost i u)).boundary) ∧
  (∀ (s v : State) (i : Instr), s.busGranted = false → s.halted = false →
    (s.nextInput.reset && s.nextInput.abandons) = false → WellFormed i = true → s.Undisturbed → s.HoldsAtPc i →
    exec i (s.fetched i) = .next v →
    step s = (v.elapse (instrCost i (s.fetched i))).boundary) ∧
  (∀ (s : State) (n : Nat),
    s.elapse n = { s with tStates := s.tStates + n, devices := s.devices.map (Device.clock n) }) ∧
  (∀ (c : Ctc) (p : Pio) (n : Nat),
    Device.clock n (.ctc c) = .ctc (c.clock n) ∧ Device.clock n (.pio p) = .pio p ∧
    c.clock 0 = c ∧ c.clock (n + 1) = c.tick.clock n) ∧
  (∀ (i : Instr) (s t : State), variesInTime i = false → instrCost i s = instrCost i t) ∧
  (∀ s : State,
    (∀ e, instrCost (.jrC e) s = (if s.regs.f.c then 12 else 7) ∧ instrCost (.jrNc e) s = (if s.regs.f.c then 7 else 12) ∧
      instrCost (.jrZ e) s = (if s.regs.f.z then 12 else 7) ∧ instrCost (.jrNz e) s = (if s.regs.f.z then 7 else 12) ∧
      instrCost (.djnz e) s = (if s.regs.b = 1#8 then 9 else 13)) ∧
    (∀ cc nn, instrCost (.callCond cc nn) s = (if condHolds cc s.regs.f then 17 else 10) ∧
      instrCost (.retCond cc) s = (if condHolds cc s.regs.f then 11 else 5)) ∧
    (∀ i ∈ [Instr.ldir, .lddr], instrCost i s = if s.bc = 1#16 then 16 else 21) ∧
    (∀ i ∈ [Instr.cpir, .cpdr], instrCost i s = if s.bc = 1#16 ∨ s.regs.a = s.read8 s.hl then 16 else 21) ∧
    (∀ i ∈ [Instr.inir, .indr, .otir, .otdr], instrCost i s = if s.regs.b = 1#8 then 16 else 21) ∧
    instrCost .nop s = 4 ∧ instrCost (.ldRegMemIx .b 0#8) s = 19 ∧ instrCost (.pushPair .bc) s = 11 ∧
    instrCost .exMemSpIx s = 23 ∧ instrCost (.addHlPair .bc) s = 11 ∧ instrCost (.setMemIx 0#3 0#8) s = 23 ∧
    instrCost (.call 0#16) s = 17 ∧ instrCost .reti s = 14 ∧ instrCost (.outCReg .a) s = 12)

/-! ### The instruction boundary -/

/-- What arrives at a boundary (R482, R492): the Wait states pass, the events reach the devices in their order, an NMI
edge is latched, the record is used up, nothing else changes; with nothing queued, nothing arrives. An event is the
pin's of the chip it names: CLK/TRG or RESET of a CTC (R561, R573), a strobe, the lines or the reset of a PIO (R553,
R554), and a chip without that pin is left alone; a reset uses up the free values it draws. INT is active if a device
outside the chain or a slot of the chain holds it (R516, R520). And nothing is accepted where the sampling is
inhibited, or no NMI is latched and INT is masked by IFF1 or inactive (R488, R500, R590): the program goes on, the
inhibition ends, a latched NMI stays latched. That the events come after the Wait states is the model's order
(log 11). -/
def Obligations.NothingIsAcceptedUnlessAllowed : Prop :=
  (∀ s : State, s.nextInput.reset = false → s.nextInput.busreq = false →
    (s.noSample = true ∨ (s.atBoundary.nmiPending = false ∧
      (s.iff1 = false ∨ s.atBoundary.intActive s.nextInput = false))) →
    s.boundary = .next { s.atBoundary with noSample := false, busGranted := false }) ∧
  (∀ s : State, s.inputs = [] → s.atBoundary = s) ∧
  (∀ (s : State) (b : BoundaryInput), s.arrive b =
    { s with tStates := s.tStates + b.waitStates, nmiPending := s.nmiPending || b.nmiEdge, inputs := s.inputs.tail
             devices := (s.arrive b).devices, draws := (s.arrive b).draws }) ∧
  (∀ (s : State) (b : BoundaryInput), b.events = [] →
    (s.arrive b).devices = s.devices.map (Device.clock b.waitStates) ∧ (s.arrive b).draws = s.draws) ∧
  (∀ (s : State) (b : BoundaryInput) (es : List DeviceEvent) (e : DeviceEvent), b.events = es ++ [e] →
    let u := s.arrive { b with events := es }
    (s.arrive b).devices = u.devices.modify e.chip (Device.event u.draws e) ∧
    (s.arrive b).draws = u.draws + e.draws) ∧
  (∀ (n j : Nat) (c : Ctc) (p : Pio) (k : BitVec 2) (b : Bool) (v : Byte),
    let clk : DeviceEvent := .clkTrg j k b
    let str : DeviceEvent := .strobe j b v
    let lin : DeviceEvent := .lines j b v
    (∀ e ∈ [clk, str, lin, .pioReset j, .ctcReset j], e.chip = j) ∧
    (clk.draws = 0 ∧ str.draws = 0 ∧ lin.draws = 0 ∧ (DeviceEvent.pioReset j).draws = 18 ∧
      (DeviceEvent.ctcReset j).draws = 9) ∧
    Device.event n clk (.ctc c) = .ctc (c.clkTrg k b) ∧
    Device.event n (.ctcReset j) (.ctc c) = .ctc (c.hardReset fun i => Config.freeByte (n + i)) ∧
    Device.event n str (.pio p) = .pio (if b then p.strobeB v else p.strobeA v) ∧
    Device.event n lin (.pio p) = .pio (p.setLines b v) ∧
    Device.event n (.pioReset j) (.pio p) = .pio (p.reset n) ∧
    (∀ e ∈ [str, lin, .pioReset j], Device.event n e (.ctc c) = .ctc c) ∧
    (∀ e ∈ [clk, .ctcReset j], Device.event n e (.pio p) = .pio p)) ∧
  (∀ (s : State) (b : BoundaryInput), s.intActive b = true ↔ b.intLine = true ∨ s.chainRequests = true)

/-- Accepting an NMI (R490, R492, R494): latched before or by an edge now, independent of IFF1 and of INT: the opcode
fetch at PC, whose byte is ignored, then the two writes of the push. Where RESET comes into the response see
ResetActsAtAnyTime, where another bus master does see MemoryCycles. -/
def Obligations.NmiIsAccepted : Prop :=
  ∀ s : State, s.mem.wf = true → s.Undisturbed → s.nextInput.reset = false → s.nextInput.resetsResponse = false →
    s.nextInput.busreq = false → s.noSample = false → (s.nmiPending = true ∨ s.nextInput.nmiEdge = true) →
    ∃ t, s.boundary = .next t ∧ InterruptTaken s t ∧ PushedOn s t s.sp s.pc ∧
      t.pc = 0x0066#16 ∧ t.iff2 = s.iff2 ∧ t.nmiPending = false ∧
      t.busLog = .memWrite (s.sp - 2#16) (s.pc.extractLsb' 0 8) :: .memWrite (s.sp - 1#16) (s.pc.extractLsb' 8 8)
        :: .opFetch s.pc (s.atBoundary.read8 s.pc) :: s.busLog

/-- Accepting a maskable interrupt (R502 to R510). The byte v is the one the acknowledge cycle delivers. In mode 0 a
restart goes to its address; another byte is executed if MODE0_INSTR allows it and it is a whole instruction, and
refused otherwise (92 D14, log 8); that it then takes two T states more than when fetched, and leaves no sampling
inhibited, is the model's choice (log 8, DESIGN CHOICE), the spec gives neither; in mode 1 the entry is 0038H; in
mode 2 it is the word at {I, v}, read after PC is pushed, the low byte first. That both enables are cleared is the
spec's own choice (92 D13, log 17). -/
def Obligations.MaskableInterruptIsAccepted : Prop :=
  ∀ (s : State) (v : Byte), s.mem.wf = true → s.Undisturbed → s.nextInput.reset = false →
    s.nextInput.resetsResponse = false → s.nextInput.busreq = false →
    s.noSample = false → s.atBoundary.nmiPending = false → s.iff1 = true →
    s.atBoundary.intActive s.nextInput = true → s.atBoundary.ackByte s.nextInput.busByte = v →
    (s.im = .mode0 → v &&& 0xC7#8 ≠ 0xC7#8 →
      let u := State.enterInterrupt { s.atBoundary with busGranted := false } .maskable s.nextInput.busByte
      (v ∉ s.params.mode0Extra → s.boundary = .refused (.mode0Instruction v)) ∧
      (∀ e, decode [v] = .error e → s.boundary = .refused (.mode0Instruction v)) ∧
      (∀ i rest w, v ∈ s.params.mode0Extra → decode [v] = .ok (i, rest) → exec i u = .next w →
        s.boundary = .next (State.elapse { w with noSample := false } (instrCost i u + 2)))) ∧
    ((s.im = .mode0 → v &&& 0xC7#8 = 0xC7#8) →
      let pushed : List BusEvent :=
        .memWrite (s.sp - 2#16) (s.pc.extractLsb' 0 8) :: .memWrite (s.sp - 1#16) (s.pc.extractLsb' 8 8)
          :: .intAck v :: s.busLog
      ∃ t, s.boundary = .next t ∧ InterruptTaken s t ∧ PushedOn s t s.sp s.pc ∧ t.iff2 = false ∧
        (s.im = .mode0 → t.pc = 0x00#8 ++ (v &&& 0x38#8) ∧ t.busLog = pushed) ∧
        (s.im = .mode1 → t.pc = 0x0038#16 ∧ t.busLog = pushed) ∧
        (s.im = .mode2 → ∃ lo hi : Byte, t.pc = hi ++ lo ∧
          t.busLog = .memRead ((s.i ++ v) + 1#16) hi :: .memRead (s.i ++ v) lo :: pushed ∧
          (s.isPlain (s.i ++ v) → lo = t.byteAt (s.i ++ v)) ∧
          (s.isPlain ((s.i ++ v) + 1#16) → hi = t.byteAt ((s.i ++ v) + 1#16))))

/-- The boundary after EI and after DI samples nothing (R37, R590): whatever is latched or active, the step ends at the
next instruction, with the enables as the instruction wrote them and the NMI still latched. u is what the fetch
leaves. -/
def Obligations.NoInterruptAfterEiOrDi : Prop :=
  ∀ (s u : State) (i : Instr), i = .ei ∨ i = .di →
    s.busGranted = false → s.halted = false → s.fetch = (.ok i, u) →
    s.nextInput.reset = false → s.nextInput.busreq = false →
    ∃ t, step s = .next t ∧ t.pc = u.pc ∧ t.sp = s.sp ∧ t.mem = u.mem ∧ t.busLog = u.busLog ∧ t.halted = false ∧
      t.iff1 = decide (i = .ei) ∧ t.iff2 = decide (i = .ei) ∧ t.noSample = false ∧
      t.nmiPending = (s.nmiPending || s.nextInput.nmiEdge)

/-- A bus grant (R75, R486): the CPU executes nothing, accepts nothing and changes no state of its own, whatever else is
active; an NMI edge is kept. A step while the bus is granted is the boundary test alone, halted or not, so it lasts
until a boundary hands the bus back. The other master's accesses happen one after the other: a memory read and a memory
write as R60 says for what occupies the address, I/O accesses as for the CPU's own, each seen on the bus. That a grant
at the boundary after EI or DI keeps the sampling inhibited is log 12 (DEDUCED). -/
def Obligations.BusGrantHoldsTheCpu : Prop :=
  (∀ s : State, s.busGranted = true → step s = s.boundary) ∧
  (∀ s : State, s.nextInput.reset = false → s.nextInput.busreq = true →
    ∃ t, s.boundary = .next t ∧ t = State.dma { s.atBoundary with busGranted := true } s.nextInput.dma ∧
      t.busGranted = true ∧
      t.regs = s.regs ∧ t.alt = s.alt ∧ t.ix = s.ix ∧ t.iy = s.iy ∧ t.sp = s.sp ∧ t.pc = s.pc ∧ t.i = s.i ∧
      t.r = s.r ∧ t.iff1 = s.iff1 ∧ t.iff2 = s.iff2 ∧ t.im = s.im ∧ t.halted = s.halted ∧
      t.noSample = s.noSample ∧ t.nmiPending = (s.nmiPending || s.nextInput.nmiEdge)) ∧
  (∀ u : State, u.dma [] = u ∧ ∀ x l, u.dma (x :: l) = (u.dmaAccess x).dma l) ∧
  (∀ (u : State) (a : Word),
    u.dmaAccess (.memRead a) = { u.answerMem a with busLog := .other (.memRead a) (u.read8 a) :: u.busLog }) ∧
  (∀ (u : State) (a : Word) (v : Byte), u.mem.wf = true →
    let t := u.dmaAccess (.memWrite a v)
    t = { u with mem := t.mem, busLog := .other (.memWrite a v) v :: u.busLog } ∧ t.mem.wf = true ∧
      ∀ b, t.byteAt b = if b = a ∧ kindAt u.memMap a = none then v else u.byteAt b) ∧
  (∀ (u : State) (p : Word) (v : Byte),
    u.dmaAccess (.ioRead p) = { u.answerIo p with busLog := .other (.ioRead p) (u.ioValue p) :: u.busLog } ∧
    u.dmaAccess (.ioWrite p v) =
      { u with devices := u.devices.map (Device.write (p.extractLsb' 0 8) v)
               busLog := .other (.ioWrite p v) v :: u.busLog })

/-- RESET wins over everything (R488) and does what R570 says. At a boundary memory is untouched. In the middle of an
instruction that would have ended in v it abandons it: each byte of memory is as it was before or as v has it (R570,
93 U9). The last clause is the model's (log 13, DESIGN CHOICE): in the middle of the response to an interrupt that would
have ended in v it abandons that likewise. The registers RESET leaves unspecified are free values (log 4) and are not
mentioned. -/
def Obligations.ResetActsAtAnyTime : Prop :=
  (∀ s : State, s.nextInput.reset = true →
    ∃ t, s.boundary = .next t ∧ WasReset t ∧ t.mem = s.mem ∧ t.memMap = s.memMap ∧ t.params = s.params) ∧
  (∀ (s u v : State) (i : Instr), s.mem.wf = true → s.busGranted = false → s.halted = false →
    s.fetch = (.ok i, u) → s.nextInput.reset = true → s.nextInput.abandons = true → exec i u = .next v →
    ∃ t, step s = .next t ∧ WasReset t ∧ t.memMap = s.memMap ∧ t.mem.wf = true ∧
      ∀ a, t.byteAt a = u.byteAt a ∨ t.byteAt a = v.byteAt a) ∧
  (∀ s v : State, s.mem.wf = true → s.nextInput.reset = false → s.nextInput.busreq = false → s.noSample = false →
    s.nextInput.resetsResponse = true →
    let u : State := { s.atBoundary with busGranted := false }
    (u.nmiPending = true ∧ v = u.acceptNmi) ∨
      (u.nmiPending = false ∧ u.iff1 = true ∧ u.intActive s.nextInput = true ∧
        u.acceptInt s.nextInput.busByte = .next v) →
    ∃ t, s.boundary = .next t ∧ WasReset t ∧ t.memMap = s.memMap ∧ t.mem.wf = true ∧
      ∀ a, t.byteAt a = s.byteAt a ∨ t.byteAt a = v.byteAt a)

/-- The state after reset, as far as R46 gives it. -/
def Obligations.StateAfterReset : Prop :=
  State.reset.pc = 0x0000#16 ∧ State.reset.i = 0x00#8 ∧ State.reset.r = 0x00#8 ∧ State.reset.iff1 = false ∧
  State.reset.iff2 = false ∧ State.reset.im = .mode0 ∧ State.reset.halted = false ∧
  State.reset.nmiPending = false ∧ State.reset.noSample = false

/-- The Halt state (R530): a step is a NOP of 4 T states, an opcode fetch at PC whose byte is ignored, which counts R
and does not move PC, then the boundary; with nothing to end it, it lasts as long as one cares to wait. That the ignored
reads are at PC is the spec's own reading (general knowledge, 92 D19; log 17). -/
def Obligations.HaltWaitsForAnInterrupt : Prop :=
  (∀ s : State, s.busGranted = false → s.halted = true → step s = (s.afterFetch.elapse 4).boundary) ∧
  (∀ (k : Nat) (s : State), s.busGranted = false → s.halted = true → s.inputs = [] → s.devices = [] →
    s.nmiPending = false → s.noSample = false → s.Undisturbed → s.isPlain s.pc →
    Sys2Proof.core.run k s =
      .next { s with r := s.r.extractLsb' 7 1 ++ (s.r.extractLsb' 0 7 + BitVec.ofNat 7 k)
                     tStates := s.tStates + 4 * k
                     busLog := List.replicate k (.opFetch s.pc (s.byteAt s.pc)) ++ s.busLog })

/-! ### The whole machine -/

/-- No instruction traps, faults or is refused, in any state (R480). -/
def Obligations.EveryInstructionCompletes : Prop :=
  ∀ (i : Instr) (s : State), Completes (exec i s)

/-- IFF1 is set only by EI, by RETN when IFF2 = 1 and, where RETI_COPIES_IFF2 says so (log 16), by RETI then; no
boundary sets it (R34, R500). -/
def Obligations.Iff1IsSetOnlyByEiAndRetn : Prop :=
  (∀ (i : Instr) (s t : State), exec i s = .next t → s.iff1 = false → t.iff1 = true →
    i = .ei ∨ ((i = .retn ∨ (i = .reti ∧ s.params.retiCopiesIff2 = true)) ∧ s.iff2 = true)) ∧
  (∀ s t : State, s.boundary = .next t → t.iff1 = true → s.iff1 = true)

/-- What an instruction leaves alone of the state that only named instructions write (R23, R28, R32 to R38, R61, R73):
I, R, the interrupt enables and mode, the Halt state, the sampling inhibition, the alternate set, the I/O space and its
devices; and what no instruction writes. What the other bus master does is not the instruction's. -/
def Obligations.OnlyTheNamedInstructionsWriteControlState : Prop :=
  ∀ (i : Instr) (s t : State), exec i s = .next t →
    (i ≠ .ldIA → t.i = s.i) ∧
    (i ≠ .ldRA → t.r = s.r) ∧
    (i ≠ .im0 → i ≠ .im1 → i ≠ .im2 → t.im = s.im) ∧
    (i ≠ .ei → i ≠ .di → t.iff2 = s.iff2 ∧ t.noSample = s.noSample) ∧
    (i ≠ .ei → i ≠ .di → i ≠ .retn → (i = .reti → s.params.retiCopiesIff2 = false) → t.iff1 = s.iff1) ∧
    (i ≠ .halt → t.halted = s.halted) ∧
    (i ≠ .exAfAf → i ≠ .exx → t.alt = s.alt) ∧
    t.nmiPending = s.nmiPending ∧ t.busGranted = s.busGranted ∧ t.memMap = s.memMap ∧ t.params = s.params ∧
    t.inputs = s.inputs ∧ t.tStates = s.tStates ∧
    (s.Undisturbed → t.cycleDma = s.cycleDma ∧
      (usesIoSpace i = false → t.ioReplies = s.ioReplies ∧
        (i ≠ .reti → t.devices = s.devices ∧ ∃ l, t.busLog = l ++ s.busLog ∧
          ∀ e ∈ l, ∃ a v, e = .memRead a v ∨ e = .memWrite a v)))

/-- An instruction that R45 does not list leaves all six flags unchanged. -/
def Obligations.OtherInstructionsKeepTheFlags : Prop :=
  ∀ (i : Instr) (s t : State), writesFlags i = false → exec i s = .next t → t.regs.f = s.regs.f

/-- Every step keeps the invariant: memory's canonical form, IFF1 only with IFF2, the sampling inhibition only while the
bus is granted away, and the form of the devices' registers. -/
def Obligations.EveryStepKeepsStateOk : Prop :=
  ∀ s t : State, StateOk s → step s = .next t → StateOk t

/-- The invariant holds at reset. -/
def Obligations.ResetIsOk : Prop := StateOk State.reset

/-- No step, whatever the instruction, the interrupt or the other bus master, changes what occupies an address, nor what
memory holds at an address that is no RAM; so a ROM reads the same ever after (R60, R480, 92 D25). What an absent
address or a device answers is not said: each read draws it or takes the device's reply (log 9). -/
def Obligations.NoStepChangesRom : Prop :=
  ∀ (s t : State) (a : Word) (k : RegionKind), s.mem.wf = true → kindAt s.memMap a = some k → step s = .next t →
    t.memMap = s.memMap ∧ t.byteAt a = s.byteAt a ∧ (k = .rom → t.read8 a = s.read8 a)

/-! ### The value and flag functions -/

/-- add8 and sub8 (R216, R217): the sum and the difference modulo 256 and their flags; overflow by the signs, and by the
true signed result; C and H of sub8 are borrows. The spec gives these formulas as its own (general knowledge, 92 D35;
log 17). -/
def Obligations.AdditionAndSubtractionFunctions : Prop :=
  (∀ (a b : Byte) (c : Bool),
    (add8 a b c).1.toNat = (a.toNat + b.toNat + c.toNat) % 256 ∧
    (add8 a b c).2.s = (add8 a b c).1.msb ∧
    ((add8 a b c).2.z = true ↔ (add8 a b c).1.toNat = 0) ∧
    ((add8 a b c).2.h = true ↔ a.toNat % 16 + b.toNat % 16 + c.toNat > 15) ∧
    ((add8 a b c).2.pv = true ↔ a.msb = b.msb ∧ (add8 a b c).1.msb ≠ a.msb) ∧
    ((add8 a b c).2.pv = true ↔ a.toInt + b.toInt + c.toNat < -128 ∨ a.toInt + b.toInt + c.toNat > 127) ∧
    (add8 a b c).2.n = false ∧
    ((add8 a b c).2.c = true ↔ a.toNat + b.toNat + c.toNat > 255)) ∧
  (∀ (a b : Byte) (c : Bool),
    ((sub8 a b c).1.toNat : Int) = (a.toNat - b.toNat - c.toNat : Int) % 256 ∧
    (sub8 a b c).2.s = (sub8 a b c).1.msb ∧
    ((sub8 a b c).2.z = true ↔ (sub8 a b c).1.toNat = 0) ∧
    ((sub8 a b c).2.h = true ↔ b.toNat % 16 + c.toNat > a.toNat % 16) ∧
    ((sub8 a b c).2.pv = true ↔ a.msb ≠ b.msb ∧ (sub8 a b c).1.msb ≠ a.msb) ∧
    ((sub8 a b c).2.pv = true ↔ a.toInt - b.toInt - c.toNat < -128 ∨ a.toInt - b.toInt - c.toNat > 127) ∧
    (sub8 a b c).2.n = true ∧
    ((sub8 a b c).2.c = true ↔ b.toNat + c.toNat > a.toNat))

/-- logic (R218), and parity: 1 exactly when the number of 1 bits is even, which the spec marks as general knowledge;
inc8 and dec8 (R219): the result and the flags it gives them; they are add8(v, 1, 0) and sub8(v, 1, 0) with C left
alone, which the spec marks as derived; only 7FH and 80H overflow (92 D35; log 17). -/
def Obligations.LogicAndIncrementFunctions : Prop :=
  (∀ (v : Byte) (h : Bool),
    (logic8 v h).1 = v ∧ (logic8 v h).2.s = v.msb ∧ ((logic8 v h).2.z = true ↔ v.toNat = 0) ∧
    (logic8 v h).2.h = h ∧ (logic8 v h).2.pv = parity v ∧ (logic8 v h).2.n = false ∧ (logic8 v h).2.c = false) ∧
  (∀ v : Byte, parity v = true ↔ ((List.range 8).countP (fun k => v.getLsbD k)) % 2 = 0) ∧
  (∀ (v : Byte) (f : Flags),
    ((inc8 v f).1.toNat = (v.toNat + 1) % 256 ∧ (inc8 v f).2.s = (inc8 v f).1.msb ∧
      ((inc8 v f).2.z = true ↔ (inc8 v f).1.toNat = 0) ∧ ((inc8 v f).2.h = true ↔ v.toNat % 16 = 15) ∧
      ((inc8 v f).2.pv = true ↔ v = 0x7F#8) ∧ (inc8 v f).2.n = false ∧ (inc8 v f).2.c = f.c) ∧
    ((dec8 v f).1.toNat = (v.toNat + 255) % 256 ∧ (dec8 v f).2.s = (dec8 v f).1.msb ∧
      ((dec8 v f).2.z = true ↔ (dec8 v f).1.toNat = 0) ∧ ((dec8 v f).2.h = true ↔ v.toNat % 16 = 0) ∧
      ((dec8 v f).2.pv = true ↔ v = 0x80#8) ∧ (dec8 v f).2.n = true ∧ (dec8 v f).2.c = f.c) ∧
    inc8 v f = ((add8 v 1#8 false).1, { (add8 v 1#8 false).2 with c := f.c }) ∧
    dec8 v f = ((sub8 v 1#8 false).1, { (sub8 v 1#8 false).2 with c := f.c }))

/-- The seven rotate and shift functions (R336 to R342): circular ones bit by bit, the others as doubling and halving;
and the flags of a rotated or shifted location. The spec gives the bit movements from general knowledge (92 D33;
log 17). -/
def Obligations.RotateFunctions : Prop :=
  (∀ (v : Byte) (k : Nat), k < 8 →
    (rlc8 v).1.getLsbD k = v.getLsbD ((k + 7) % 8) ∧ (rrc8 v).1.getLsbD k = v.getLsbD ((k + 1) % 8)) ∧
  (∀ (v : Byte) (c : Bool),
    (rl8 c v).1.toNat = (2 * v.toNat + c.toNat) % 256 ∧ (rr8 c v).1.toNat = v.toNat / 2 + 128 * c.toNat ∧
    (sla8 v).1.toNat = 2 * v.toNat % 256 ∧ (sra8 v).1.toInt = v.toInt / 2 ∧ (srl8 v).1.toNat = v.toNat / 2) ∧
  (∀ (v : Byte) (c : Bool),
    (rlc8 v).2 = v.msb ∧ (rl8 c v).2 = v.msb ∧ (sla8 v).2 = v.msb ∧ (rrc8 v).2 = v.getLsbD 0 ∧
    (rr8 c v).2 = v.getLsbD 0 ∧ (sra8 v).2 = v.getLsbD 0 ∧ (srl8 v).2 = v.getLsbD 0) ∧
  (∀ p : Byte × Bool,
    shifted p =
      (p.1, { s := p.1.msb, z := decide (p.1.toNat = 0), h := false, pv := parity p.1, n := false, c := p.2 }))

/-- The condition codes, the flag each tests, and where the code stands in the three instructions that have one
(R410). -/
def Obligations.ConditionCodes : Prop :=
  (∀ (k : BitVec 3) (nn : Word),
    (encode (.jpCond (condOfCode k) nn)).head? = some (0b11#2 ++ k ++ 0b010#3) ∧
    (encode (.callCond (condOfCode k) nn)).head? = some (0b11#2 ++ k ++ 0b100#3) ∧
    encode (.retCond (condOfCode k)) = [0b11#2 ++ k ++ 0b000#3]) ∧
  ∀ f : Flags,
    (condHolds (condOfCode 0#3) f = true ↔ f.z = false) ∧ (condHolds (condOfCode 1#3) f = true ↔ f.z = true) ∧
    (condHolds (condOfCode 2#3) f = true ↔ f.c = false) ∧ (condHolds (condOfCode 3#3) f = true ↔ f.c = true) ∧
    (condHolds (condOfCode 4#3) f = true ↔ f.pv = false) ∧ (condHolds (condOfCode 5#3) f = true ↔ f.pv = true) ∧
    (condHolds (condOfCode 6#3) f = true ↔ f.s = false) ∧ (condHolds (condOfCode 7#3) f = true ↔ f.s = true)

/-- The register file (R21, R23): a register reads as last written, writing one leaves the others alone, a pair is its
two registers, the first one high. -/
def Obligations.RegisterFile : Prop :=
  (∀ (s : State) (r r' : Reg8) (v : Byte),
    (s.setReg r v).getReg r' = (if r' = r then v else s.getReg r') ∧
    s.setReg r v = { s with regs := (s.setReg r v).regs } ∧ (s.setReg r v).regs.f = s.regs.f) ∧
  (∀ s : State, s.getReg .b = s.regs.b ∧ s.getReg .c = s.regs.c ∧ s.getReg .d = s.regs.d ∧ s.getReg .e = s.regs.e ∧
    s.getReg .h = s.regs.h ∧ s.getReg .l = s.regs.l ∧ s.getReg .a = s.regs.a) ∧
  (∀ s : State, s.bc.toNat = 256 * s.regs.b.toNat + s.regs.c.toNat ∧
    s.de.toNat = 256 * s.regs.d.toNat + s.regs.e.toNat ∧ s.hl.toNat = 256 * s.regs.h.toNat + s.regs.l.toNat) ∧
  (∀ (s : State) (v : Word),
    ((s.setBc v).bc = v ∧ s.setBc v = { s with regs := { s.regs with b := (s.setBc v).regs.b, c := (s.setBc v).regs.c } }) ∧
    ((s.setDe v).de = v ∧ s.setDe v = { s with regs := { s.regs with d := (s.setDe v).regs.d, e := (s.setDe v).regs.e } }) ∧
    ((s.setHl v).hl = v ∧ s.setHl v = { s with regs := { s.regs with h := (s.setHl v).regs.h, l := (s.setHl v).regs.l } }))

/-- DAA after the addition or subtraction of packed BCD bytes, with or without carry, gives the packed BCD result and
its decimal carry or borrow (R290, whose algorithm is general knowledge: 92 D32, log 17). -/
def Obligations.DaaGivesTheDecimalResult : Prop :=
  ∀ (x y : Byte) (c : Bool), isBcd x → isBcd y →
    (isBcd (daa8 (add8 x y c).1 (add8 x y c).2).1 ∧
      bcdValue (daa8 (add8 x y c).1 (add8 x y c).2).1 = (bcdValue x + bcdValue y + c.toNat) % 100 ∧
      ((daa8 (add8 x y c).1 (add8 x y c).2).2.c = true ↔ bcdValue x + bcdValue y + c.toNat ≥ 100)) ∧
    (isBcd (daa8 (sub8 x y c).1 (sub8 x y c).2).1 ∧
      (bcdValue (daa8 (sub8 x y c).1 (sub8 x y c).2).1 : Int) = (bcdValue x - bcdValue y - c.toNat : Int) % 100 ∧
      ((daa8 (sub8 x y c).1 (sub8 x y c).2).2.c = true ↔ bcdValue x < bcdValue y + c.toNat))

/-! ### Memory cycles and input and output cycles -/

/-- The CPU's memory cycles (R60, R66, R69): what a read delivers and leaves, by what occupies the address; that a write
stores in RAM alone; the opcode fetch; the word read, low byte first; each seen once on the bus. And the end of every
bus cycle, where another bus master may act (R68, R75, DMA_GRAIN): with nothing queued, or with DMA_GRAIN = instruction,
nothing happens. What a device and an absent address deliver is log 9, the queue that says what the other master does is
log 11. -/
def Obligations.MemoryCycles : Prop :=
  (∀ u : State, u.Undisturbed → u.endCycle = u) ∧
  (∀ (u : State) (l : List DmaAccess) (t : List (List DmaAccess)), u.params.dmaGrain = .machineCycle →
    u.cycleDma = l :: t → u.endCycle = State.dma { u with cycleDma := t } l) ∧
  (∀ (s : State) (a : Word),
    (s.isPlain a → s.read8 a = s.byteAt a ∧ s.answerMem a = s) ∧
    (kindAt s.memMap a = some .device → s.read8 a = s.memReplies.headD (Config.freeByte s.draws) ∧
      s.answerMem a = { s with memReplies := s.memReplies.tail, draws := s.draws + 1 }) ∧
    (kindAt s.memMap a = some .absent → s.read8 a = Config.freeByte s.draws ∧
      s.answerMem a = { s with draws := s.draws + 1 })) ∧
  (∀ (s : State) (a : Word),
    s.afterRead8 a = State.endCycle { s.answerMem a with busLog := .memRead a (s.read8 a) :: s.busLog } ∧
    s.read16 a = (s.afterRead8 a).read8 (a + 1#16) ++ s.read8 a ∧
    s.afterRead16 a = (s.afterRead8 a).afterRead8 (a + 1#16) ∧
    s.afterFetch =
      State.endCycle { s.answerMem s.pc with
        r := s.r.extractLsb' 7 1 ++ (s.r.extractLsb' 0 7 + 1#7)
        devices := s.devices.map Device.m1
        busLog := .opFetch s.pc (s.read8 s.pc) :: s.busLog }) ∧
  (∀ (s : State) (a : Word) (v : Byte), s.mem.wf = true → ∃ u, s.write8 a v = u.endCycle ∧ TookByte s u a v)

/-- The CPU's input and output cycles (R61, R70, R550, R560): the port is seen on the bus with its byte; the first
device that claims the port answers a read, else a device outside the model, whose reply is the next one queued, else a
free value; a write reaches every device that claims the port; registers and memory are left alone. Which four ports a
device claims is the usual wiring (log 20); the queue and the free value are log 10. -/
def Obligations.InputOutputCycles : Prop :=
  (∀ (s : State) (port : Word) (v : Byte),
    s.afterIoRead port =
      State.endCycle { s with devices := (s.answerIo port).devices, ioReplies := (s.answerIo port).ioReplies
                              draws := s.draws + 1, busLog := .ioRead port (s.ioValue port) :: s.busLog } ∧
    s.ioWrite port v =
      State.endCycle { s with devices := s.devices.map (Device.write (port.extractLsb' 0 8) v)
                              busLog := .ioWrite port v :: s.busLog }) ∧
  (∀ (s : State) (port : Word) (pre post : List Device) (d : Device), s.devices = pre ++ d :: post →
    (∀ x ∈ pre, x.claims (port.extractLsb' 0 8) = false) → d.claims (port.extractLsb' 0 8) = true →
    s.ioValue port = d.read (Config.freeByte s.draws) (port.extractLsb' 0 8) ∧
    (s.answerIo port).devices = pre ++ d.afterRead (port.extractLsb' 0 8) :: post ∧
    (s.answerIo port).ioReplies = s.ioReplies) ∧
  (∀ (s : State) (port : Word), (∀ x ∈ s.devices, x.claims (port.extractLsb' 0 8) = false) →
    s.ioValue port = s.ioReplies.headD (Config.freeByte s.draws) ∧
    (s.answerIo port).devices = s.devices ∧ (s.answerIo port).ioReplies = s.ioReplies.tail) ∧
  (∀ (d : Device) (lo : Byte), d.claims lo = true ↔ lo.toNat / 4 = d.base.toNat / 4) ∧
  (∀ (d : Device) (lo v : Byte), d.claims lo = false → d.write lo v = d) ∧
  (∀ (c : Ctc) (lo v free : Byte), (Device.ctc c).claims lo = true →
    (Device.ctc c).write lo v = .ctc (c.write (lo.extractLsb' 0 2) v) ∧
    (Device.ctc c).read free lo = c.read (lo.extractLsb' 0 2) ∧ (Device.ctc c).afterRead lo = .ctc c) ∧
  (∀ (p : Pio) (lo v free : Byte), (Device.pio p).claims lo = true →
    (Device.pio p).write lo v = .pio (p.write (lo.extractLsb' 0 2) v) ∧
    (Device.pio p).read free lo = p.read free (lo.extractLsb' 0 2) ∧
    (Device.pio p).afterRead lo = .pio (p.afterRead (lo.extractLsb' 0 2)))

/-! ### Loads and exchanges. The last bus cycle of each is followed by State.endCycle, inside the operation named. -/

/-- The 8-bit loads of a register (R131 to R135, R142 to R144): one read for the forms that have one, the destination
alone changes, no flag. LD A,I and LD A,R copy IFF2 into P/V and keep C; LD I,A and LD R,A write no flag (R148 to R151).
What LD A,R delivers is R_MODEL: the exact count, or bit 7 and seven drawn bits (R33, log 14). -/
def Obligations.ByteLoads : Prop :=
  (∀ (s : State) (r : Reg8),
    let loaded (a : Word) : State := (s.afterRead8 a).setReg r (s.read8 a)
    (∀ r', exec (.ldRegReg r r') s = .next (s.setReg r (s.getReg r'))) ∧
    (∀ n, exec (.ldRegImm r n) s = .next (s.setReg r n)) ∧
    exec (.ldRegMemHl r) s = .next (loaded (s.regs.h ++ s.regs.l)) ∧
    (∀ d, exec (.ldRegMemIx r d) s = .next (loaded (s.ix + d.signExtend 16))) ∧
    (∀ d, exec (.ldRegMemIy r d) s = .next (loaded (s.iy + d.signExtend 16)))) ∧
  (∀ s : State,
    let toA (a : Word) : State := { s.afterRead8 a with regs := { s.regs with a := s.read8 a } }
    exec .ldAMemBc s = .next (toA (s.regs.b ++ s.regs.c)) ∧
    exec .ldAMemDe s = .next (toA (s.regs.d ++ s.regs.e)) ∧
    (∀ nn, exec (.ldAMemNn nn) s = .next (toA nn))) ∧
  (∀ s : State,
    let toA (v : Byte) : Bank := { s.regs with
      a := v
      f := { s := v.msb, z := decide (v = 0#8), h := false, pv := s.iff2, n := false, c := s.regs.f.c } }
    exec .ldAI s = .next { s with regs := toA s.i } ∧
    (s.params.rExact = true → exec .ldAR s = .next { s with regs := toA s.r }) ∧
    (s.params.rExact = false →
      exec .ldAR s =
        .next { s with regs := toA (s.r.extractLsb' 7 1 ++ (Config.freeByte s.draws).extractLsb' 0 7)
                       draws := s.draws + 1 }) ∧
    exec .ldIA s = .next { s with i := s.regs.a } ∧
    exec .ldRA s = .next { s with r := s.regs.a })

/-- The 8-bit stores (R136 to R141, R145 to R147): one byte of memory, nothing else. Undisturbed: no other bus master
acts meanwhile; where one does see MemoryCycles. -/
def Obligations.ByteStores : Prop :=
  ∀ s : State, s.mem.wf = true → s.Undisturbed →
    (∀ r, ∃ t, exec (.ldMemHlReg r) s = .next t ∧ TookByte s t (s.regs.h ++ s.regs.l) (s.getReg r)) ∧
    (∀ d r, ∃ t, exec (.ldMemIxReg d r) s = .next t ∧ TookByte s t (s.ix + d.signExtend 16) (s.getReg r)) ∧
    (∀ d r, ∃ t, exec (.ldMemIyReg d r) s = .next t ∧ TookByte s t (s.iy + d.signExtend 16) (s.getReg r)) ∧
    (∀ n, ∃ t, exec (.ldMemHlImm n) s = .next t ∧ TookByte s t (s.regs.h ++ s.regs.l) n) ∧
    (∀ d n, ∃ t, exec (.ldMemIxImm d n) s = .next t ∧ TookByte s t (s.ix + d.signExtend 16) n) ∧
    (∀ d n, ∃ t, exec (.ldMemIyImm d n) s = .next t ∧ TookByte s t (s.iy + d.signExtend 16) n) ∧
    (∃ t, exec .ldMemBcA s = .next t ∧ TookByte s t (s.regs.b ++ s.regs.c) s.regs.a) ∧
    (∃ t, exec .ldMemDeA s = .next t ∧ TookByte s t (s.regs.d ++ s.regs.e) s.regs.a) ∧
    (∀ nn, ∃ t, exec (.ldMemNnA nn) s = .next t ∧ TookByte s t nn s.regs.a)

/-- The 16-bit loads of a register (R161 to R167, R172 to R174): the low byte is the one at the lower address (R63), and
it is read first (R66). -/
def Obligations.WordLoads : Prop :=
  ∀ (s : State) (nn : Word),
    let lo := s.read8 nn
    let hi := (s.afterRead8 nn).read8 (nn + 1#16)
    let u := (s.afterRead8 nn).afterRead8 (nn + 1#16)
    (exec (.ldPairImm .bc nn) s = .next (s.setBc nn) ∧ exec (.ldPairImm .de nn) s = .next (s.setDe nn) ∧
      exec (.ldPairImm .hl nn) s = .next (s.setHl nn) ∧ exec (.ldPairImm .sp nn) s = .next { s with sp := nn }) ∧
    exec (.ldIxImm nn) s = .next { s with ix := nn } ∧
    exec (.ldIyImm nn) s = .next { s with iy := nn } ∧
    exec (.ldHlMemNn nn) s = .next { u with regs := { s.regs with h := hi, l := lo } } ∧
    (exec (.ldPairMemNn .bc nn) s = .next { u with regs := { s.regs with b := hi, c := lo } } ∧
      exec (.ldPairMemNn .de nn) s = .next { u with regs := { s.regs with d := hi, e := lo } } ∧
      exec (.ldPairMemNn .hl nn) s = .next { u with regs := { s.regs with h := hi, l := lo } } ∧
      exec (.ldPairMemNn .sp nn) s = .next { u with sp := hi ++ lo }) ∧
    exec (.ldIxMemNn nn) s = .next { u with ix := hi ++ lo } ∧
    exec (.ldIyMemNn nn) s = .next { u with iy := hi ++ lo } ∧
    exec .ldSpHl s = .next { s with sp := s.regs.h ++ s.regs.l } ∧
    exec .ldSpIx s = .next { s with sp := s.ix } ∧
    exec .ldSpIy s = .next { s with sp := s.iy }

/-- The 16-bit stores to (nn) (R168 to R171): the low byte to nn first, then the high byte to nn + 1 (R66). -/
def Obligations.WordStores : Prop :=
  ∀ (s : State) (nn : Word), s.mem.wf = true → s.Undisturbed →
    let stored (i : Instr) (lo hi : Byte) : Prop := ∃ t, exec i s = .next t ∧ TookTwo s t nn lo (nn + 1#16) hi
    stored (.ldMemNnHl nn) s.regs.l s.regs.h ∧
    stored (.ldMemNnPair nn .bc) s.regs.c s.regs.b ∧
    stored (.ldMemNnPair nn .de) s.regs.e s.regs.d ∧
    stored (.ldMemNnPair nn .hl) s.regs.l s.regs.h ∧
    stored (.ldMemNnPair nn .sp) (s.sp.extractLsb' 0 8) (s.sp.extractLsb' 8 8) ∧
    stored (.ldMemNnIx nn) (s.ix.extractLsb' 0 8) (s.ix.extractLsb' 8 8) ∧
    stored (.ldMemNnIy nn) (s.iy.extractLsb' 0 8) (s.iy.extractLsb' 8 8)

/-- PUSH (R30, R175 to R177): the high byte to SP - 1 first, then the low byte to SP - 2 (R66). Of a pushed F the six
named bits are given (R24); bits 5 and 3 are free (R26). -/
def Obligations.Pushes : Prop :=
  ∀ s : State, s.mem.wf = true → s.Undisturbed →
    let pushed (u : State) (i : Instr) (hi lo : Byte) : Prop :=
      ∃ t, exec i s = .next t ∧ TookTwo { u with sp := s.sp - 2#16 } t (s.sp - 1#16) hi (s.sp - 2#16) lo
    pushed s (.pushPair .bc) s.regs.b s.regs.c ∧
    pushed s (.pushPair .de) s.regs.d s.regs.e ∧
    pushed s (.pushPair .hl) s.regs.h s.regs.l ∧
    (∃ f : Byte, pushed { s with draws := s.draws + 2 } (.pushPair .af) s.regs.a f ∧
      f.getLsbD 7 = s.regs.f.s ∧ f.getLsbD 6 = s.regs.f.z ∧ f.getLsbD 4 = s.regs.f.h ∧
      f.getLsbD 2 = s.regs.f.pv ∧ f.getLsbD 1 = s.regs.f.n ∧ f.getLsbD 0 = s.regs.f.c) ∧
    pushed s .pushIx (s.ix.extractLsb' 8 8) (s.ix.extractLsb' 0 8) ∧
    pushed s .pushIy (s.iy.extractLsb' 8 8) (s.iy.extractLsb' 0 8)

/-- POP (R30, R178 to R180): the low byte at SP is read first, then the high byte at SP + 1 (R66); POP AF discards bits
5 and 3. -/
def Obligations.Pops : Prop :=
  ∀ s : State,
    let lo := s.read8 s.sp
    let hi := (s.afterRead8 s.sp).read8 (s.sp + 1#16)
    let u : State := { (s.afterRead8 s.sp).afterRead8 (s.sp + 1#16) with sp := s.sp + 2#16 }
    exec (.popPair .bc) s = .next { u with regs := { s.regs with b := hi, c := lo } } ∧
    exec (.popPair .de) s = .next { u with regs := { s.regs with d := hi, e := lo } } ∧
    exec (.popPair .hl) s = .next { u with regs := { s.regs with h := hi, l := lo } } ∧
    exec (.popPair .af) s =
      .next { u with regs := { s.regs with
        a := hi
        f := { s := lo.getLsbD 7, z := lo.getLsbD 6, h := lo.getLsbD 4, pv := lo.getLsbD 2, n := lo.getLsbD 1
               c := lo.getLsbD 0 } } } ∧
    exec .popIx s = .next { u with ix := hi ++ lo } ∧
    exec .popIy s = .next { u with iy := hi ++ lo }

/-- PUSH and then POP of the same pair restores it, SP and all registers, where the stack is RAM and no other bus master
acts meanwhile; for AF this holds whatever bits 5 and 3 were (R178). -/
def Obligations.PushThenPopRestores : Prop :=
  ∀ s : State, s.mem.wf = true → s.Undisturbed → kindAt s.memMap (s.sp - 1#16) = none →
    kindAt s.memMap (s.sp - 2#16) = none →
    (∀ qq, ∃ t u, exec (.pushPair qq) s = .next t ∧ exec (.popPair qq) t = .next u ∧
      u.regs = s.regs ∧ u.sp = s.sp ∧ u.ix = s.ix ∧ u.iy = s.iy) ∧
    (∃ t u, exec .pushIx s = .next t ∧ exec .popIx t = .next u ∧ u.ix = s.ix ∧ u.sp = s.sp ∧ u.regs = s.regs) ∧
    (∃ t u, exec .pushIy s = .next t ∧ exec .popIy t = .next u ∧ u.iy = s.iy ∧ u.sp = s.sp ∧ u.regs = s.regs)

/-- EX DE,HL, EX AF,AF' and EXX (R191 to R193): their one-byte encodings, fetched in one M cycle of 4 T states, and that
EX DE,HL has no DD or FD form; what they exchange, and that nothing else changes; executed twice, each restores the
state. -/
def Obligations.RegisterExchanges : Prop :=
  (encode .exDeHl = [0b11101011#8] ∧ encode .exAfAf = [0b00001000#8] ∧ encode .exx = [0b11011001#8]) ∧
  (∀ t, (∃ e, decode (0xDD#8 :: 0xEB#8 :: t) = .error e) ∧ ∃ e, decode (0xFD#8 :: 0xEB#8 :: t) = .error e) ∧
  (Instr.exDeHl.fetchCycles = 1 ∧ Instr.exAfAf.fetchCycles = 1 ∧ Instr.exx.fetchCycles = 1) ∧
  ∀ s : State,
    (instrCost .exDeHl s = 4 ∧ instrCost .exAfAf s = 4 ∧ instrCost .exx s = 4) ∧
    exec .exDeHl s =
      .next { s with regs := { s.regs with d := s.regs.h, e := s.regs.l, h := s.regs.d, l := s.regs.e } } ∧
    exec .exAfAf s =
      .next { s with regs := { s.regs with a := s.alt.a, f := s.alt.f }
                     alt := { s.alt with a := s.regs.a, f := s.regs.f } } ∧
    exec .exx s =
      .next { s with regs := { s.regs with b := s.alt.b, c := s.alt.c, d := s.alt.d, e := s.alt.e, h := s.alt.h
                                           l := s.alt.l }
                     alt := { s.alt with b := s.regs.b, c := s.regs.c, d := s.regs.d, e := s.regs.e, h := s.regs.h
                                         l := s.regs.l } } ∧
    (∀ i ∈ [Instr.exDeHl, .exAfAf, .exx], ∃ t, exec i s = .next t ∧ exec i t = .next s)

/-- EX (SP),HL, EX (SP),IX and EX (SP),IY (R194 to R196): (SP) is read, then (SP + 1), then (SP + 1) and (SP) are
written (R66); SP stays, no flag changes. -/
def Obligations.StackExchanges : Prop :=
  ∀ s : State, s.mem.wf = true → s.Undisturbed →
    let lo := s.read8 s.sp
    let hi := (s.afterRead8 s.sp).read8 (s.sp + 1#16)
    let u := (s.afterRead8 s.sp).afterRead8 (s.sp + 1#16)
    (∃ t, exec .exMemSpHl s = .next t ∧
      TookTwo { u with regs := { s.regs with h := hi, l := lo } } t (s.sp + 1#16) s.regs.h s.sp s.regs.l) ∧
    (∃ t, exec .exMemSpIx s = .next t ∧
      TookTwo { u with ix := hi ++ lo } t (s.sp + 1#16) (s.ix.extractLsb' 8 8) s.sp (s.ix.extractLsb' 0 8)) ∧
    (∃ t, exec .exMemSpIy s = .next t ∧
      TookTwo { u with iy := hi ++ lo } t (s.sp + 1#16) (s.iy.extractLsb' 8 8) s.sp (s.iy.extractLsb' 0 8))

/-! ### Block instructions -/

/-- LDI, LDD, LDIR, LDDR, one iteration (R197 to R200, R205): one byte is read and then stored, the pointers move, BC
counts down; H and N are 0, P/V says whether BC is not 0 yet, S, Z and C are kept; a repeating one puts PC back until BC
is 0. -/
def Obligations.BlockTransfers : Prop :=
  ∀ s : State, s.mem.wf = true → s.Undisturbed →
    let moved (δ pc : Word) : State :=
      State.setFlags { (((s.afterRead8 s.hl).setDe (s.de + δ)).setHl (s.hl + δ)).setBc (s.bc - 1#16) with pc := pc }
        { s.regs.f with h := false, n := false, pv := decide (s.bc ≠ 1#16) }
    let pc' : Word := if s.bc = 1#16 then s.pc else s.pc - 2#16
    (∃ t, exec .ldi s = .next t ∧ TookByte (moved 1#16 s.pc) t s.de (s.read8 s.hl)) ∧
    (∃ t, exec .ldd s = .next t ∧ TookByte (moved (-1#16) s.pc) t s.de (s.read8 s.hl)) ∧
    (∃ t, exec .ldir s = .next t ∧ TookByte (moved 1#16 pc') t s.de (s.read8 s.hl)) ∧
    (∃ t, exec .lddr s = .next t ∧ TookByte (moved (-1#16) pc') t s.de (s.read8 s.hl))

/-- LDIR as a whole: placed in memory and left to run, with nothing from outside, it copies a block of n bytes in n
steps, if no byte it still has to read and no byte of itself is overwritten on the way (R198, R205). -/
def Obligations.LdirCopiesABlock : Prop :=
  ∀ (n : Nat) (s : State), s.mem.wf = true → s.memMap = [] → s.inputs = [] → s.devices = [] → s.Undisturbed →
    s.busGranted = false → s.halted = false → s.nmiPending = false →
    1 ≤ n → n < 65536 → s.bc = BitVec.ofNat 16 n →
    s.byteAt s.pc = 0xED#8 → s.byteAt (s.pc + 1#16) = 0xB0#8 →
    (∀ k, k < n → s.de + BitVec.ofNat 16 k ≠ s.pc ∧ s.de + BitVec.ofNat 16 k ≠ s.pc + 1#16) →
    (∀ j k, j < k → k < n → s.de + BitVec.ofNat 16 j ≠ s.hl + BitVec.ofNat 16 k) →
    ∃ t, Sys2Proof.core.run n s = .next t ∧ t.pc = s.pc + 2#16 ∧ t.bc = 0#16 ∧
      t.de = s.de + BitVec.ofNat 16 n ∧ t.hl = s.hl + BitVec.ofNat 16 n ∧ t.regs.f.pv = false ∧
      (∀ k, k < n → t.byteAt (s.de + BitVec.ofNat 16 k) = s.byteAt (s.hl + BitVec.ofNat 16 k)) ∧
      (∀ a, (∀ k, k < n → a ≠ s.de + BitVec.ofNat 16 k) → t.byteAt a = s.byteAt a)

/-- CPI, CPD, CPIR, CPDR, one iteration (R201 to R205): A is compared with the byte read at HL; C is kept; a repeating
one puts PC back until BC is 0 or the bytes are equal. -/
def Obligations.BlockSearches : Prop :=
  ∀ s : State,
    let m := s.read8 s.hl
    let moved (δ pc : Word) : State :=
      State.setFlags { ((s.afterRead8 s.hl).setHl (s.hl + δ)).setBc (s.bc - 1#16) with pc := pc }
        { s := (s.regs.a - m).msb, z := decide (s.regs.a = m), h := decide (s.regs.a.toNat % 16 < m.toNat % 16)
          pv := decide (s.bc ≠ 1#16), n := true, c := s.regs.f.c }
    let pc' : Word := if s.bc = 1#16 ∨ s.regs.a = m then s.pc else s.pc - 2#16
    exec .cpi s = .next (moved 1#16 s.pc) ∧
    exec .cpd s = .next (moved (-1#16) s.pc) ∧
    exec .cpir s = .next (moved 1#16 pc') ∧
    exec .cpdr s = .next (moved (-1#16) pc')

/-! ### Arithmetic and logic -/

/-- The eight accumulator operations on their five operand forms (R215, R220 to R259): A and the flags alone change, and
with CP the flags alone. -/
def Obligations.AccumulatorOperations : Prop :=
  ∀ s : State,
    let a := s.regs.a
    let c := s.regs.f.c
    let into (u : State) (p : Byte × Flags) : State := { u with regs := { u.regs with a := p.1, f := p.2 } }
    OnEveryOperand s .addReg .addImm .addMemHl .addMemIx .addMemIy (fun u v => into u (add8 a v false)) ∧
    OnEveryOperand s .adcReg .adcImm .adcMemHl .adcMemIx .adcMemIy (fun u v => into u (add8 a v c)) ∧
    OnEveryOperand s .subReg .subImm .subMemHl .subMemIx .subMemIy (fun u v => into u (sub8 a v false)) ∧
    OnEveryOperand s .sbcReg .sbcImm .sbcMemHl .sbcMemIx .sbcMemIy (fun u v => into u (sub8 a v c)) ∧
    OnEveryOperand s .andReg .andImm .andMemHl .andMemIx .andMemIy (fun u v => into u (logic8 (a &&& v) true)) ∧
    OnEveryOperand s .orReg .orImm .orMemHl .orMemIx .orMemIy (fun u v => into u (logic8 (a ||| v) false)) ∧
    OnEveryOperand s .xorReg .xorImm .xorMemHl .xorMemIx .xorMemIy (fun u v => into u (logic8 (a ^^^ v) false)) ∧
    OnEveryOperand s .cpReg .cpImm .cpMemHl .cpMemIx .cpMemIy
      (fun u v => { u with regs := { u.regs with f := (sub8 a v false).2 } })

/-- INC and DEC of a register or of a byte of memory (R260 to R267): C is kept. -/
def Obligations.IncrementAndDecrement : Prop :=
  (∀ (s : State) (r : Reg8),
    exec (.incReg r) s = .next ((s.setReg r (s.getReg r + 1#8)).setFlags (inc8 (s.getReg r) s.regs.f).2) ∧
    exec (.decReg r) s = .next ((s.setReg r (s.getReg r - 1#8)).setFlags (dec8 (s.getReg r) s.regs.f).2)) ∧
  (∀ s : State, s.mem.wf = true → s.Undisturbed →
    OnEveryMemoryOperand s .incMemHl .incMemIx .incMemIy (fun m => m + 1#8)
      (fun u m => u.setFlags (inc8 m s.regs.f).2) ∧
    OnEveryMemoryOperand s .decMemHl .decMemIx .decMemIy (fun m => m - 1#8)
      (fun u m => u.setFlags (dec8 m s.regs.f).2))

/-- DAA, CPL, NEG, CCF and SCF (R290 to R294). H after CCF is a free value. DAA's algorithm is the spec's general
knowledge (92 D32), not the source's; and that H after DAA is exactly this, where R290 would also let a model draw it,
is the model's choice (log 17, PRESUMED). -/
def Obligations.AccumulatorAndCarry : Prop :=
  ∀ s : State,
    let a := s.regs.a
    let f := s.regs.f
    let corr : Byte := (if f.h = true ∨ a.toNat % 16 > 9 then 0x06#8 else 0x00#8)
      ||| (if f.c = true ∨ a.toNat > 0x99 then 0x60#8 else 0x00#8)
    let res : Byte := if f.n = true then a - corr else a + corr
    exec .daa s =
      .next { s with regs := { s.regs with
        a := res
        f := { s := res.msb, z := decide (res = 0#8)
               h := if f.n = true then decide (f.h = true ∧ a.toNat % 16 < 6) else decide (a.toNat % 16 > 9)
               pv := parity res, n := f.n, c := decide (f.c = true ∨ a.toNat > 0x99) } } } ∧
    exec .cpl s = .next { s with regs := { s.regs with a := ~~~a, f := { f with h := true, n := true } } } ∧
    exec .neg s =
      .next { s with regs := { s.regs with
        a := -a
        f := { s := (-a).msb, z := decide (a = 0#8), h := decide (a.toNat % 16 ≠ 0), pv := decide (a = 0x80#8)
               n := true, c := decide (a ≠ 0#8) } } } ∧
    exec .ccf s =
      .next { s with draws := s.draws + 1
                     regs := { s.regs with f := { f with c := !f.c, h := Config.freeBit s.draws, n := false } } } ∧
    exec .scf s = .next { s with regs := { s.regs with f := { f with c := true, h := false, n := false } } }

/-- NOP, HALT, DI, EI and IM (R295 to R301). -/
def Obligations.CpuControl : Prop :=
  ∀ s : State,
    exec .nop s = .next s ∧
    exec .halt s = .next { s with halted := true } ∧
    exec .di s = .next { s with iff1 := false, iff2 := false, noSample := true } ∧
    exec .ei s = .next { s with iff1 := true, iff2 := true, noSample := true } ∧
    exec .im0 s = .next { s with im := .mode0 } ∧
    exec .im1 s = .next { s with im := .mode1 } ∧
    exec .im2 s = .next { s with im := .mode2 }

/-- The 16-bit additions and subtractions (R316 to R320), with overflow as the true signed result and C as carry or
borrow; H is a free value; ADD keeps S, Z and P/V. INC and DEC of 16-bit registers (R321 to R326) touch no flag. The
operand of each code: ss names BC, DE, HL, SP; pp has IX and rr has IY in HL's place (R97, R99). -/
def Obligations.WordArithmetic : Prop :=
  (∀ s : State,
    let c := s.regs.f.c
    let h := Config.freeBit s.draws
    let u : State := { s with draws := s.draws + 1 }
    let addF (x y : Word) : Flags := { s.regs.f with h := h, n := false, c := decide (x.toNat + y.toNat > 65535) }
    let bc := s.regs.b ++ s.regs.c
    let de := s.regs.d ++ s.regs.e
    let hl := s.regs.h ++ s.regs.l
    let addHl (y : Word) : Result := .next ((u.setHl (hl + y)).setFlags (addF hl y))
    let addIx (y : Word) : Result := .next (State.setFlags { u with ix := s.ix + y } (addF s.ix y))
    let addIy (y : Word) : Result := .next (State.setFlags { u with iy := s.iy + y } (addF s.iy y))
    let adcHl (y : Word) : Result :=
      .next ((u.setHl (hl + y + BitVec.ofNat 16 c.toNat)).setFlags
        { s := (hl + y + BitVec.ofNat 16 c.toNat).msb, z := decide (hl + y + BitVec.ofNat 16 c.toNat = 0#16), h := h
          pv := decide (hl.toInt + y.toInt + c.toNat < -32768 ∨ hl.toInt + y.toInt + c.toNat > 32767)
          n := false, c := decide (hl.toNat + y.toNat + c.toNat > 65535) })
    let sbcHl (y : Word) : Result :=
      .next ((u.setHl (hl - y - BitVec.ofNat 16 c.toNat)).setFlags
        { s := (hl - y - BitVec.ofNat 16 c.toNat).msb, z := decide (hl - y - BitVec.ofNat 16 c.toNat = 0#16), h := h
          pv := decide (hl.toInt - y.toInt - c.toNat < -32768 ∨ hl.toInt - y.toInt - c.toNat > 32767)
          n := true, c := decide (y.toNat + c.toNat > hl.toNat) })
    (exec (.addHlPair .bc) s = addHl bc ∧ exec (.addHlPair .de) s = addHl de ∧ exec (.addHlPair .hl) s = addHl hl ∧
      exec (.addHlPair .sp) s = addHl s.sp) ∧
    (exec (.addIxPair .bc) s = addIx bc ∧ exec (.addIxPair .de) s = addIx de ∧ exec (.addIxPair .ix) s = addIx s.ix ∧
      exec (.addIxPair .sp) s = addIx s.sp) ∧
    (exec (.addIyPair .bc) s = addIy bc ∧ exec (.addIyPair .de) s = addIy de ∧ exec (.addIyPair .iy) s = addIy s.iy ∧
      exec (.addIyPair .sp) s = addIy s.sp) ∧
    (exec (.adcHlPair .bc) s = adcHl bc ∧ exec (.adcHlPair .de) s = adcHl de ∧ exec (.adcHlPair .hl) s = adcHl hl ∧
      exec (.adcHlPair .sp) s = adcHl s.sp) ∧
    (exec (.sbcHlPair .bc) s = sbcHl bc ∧ exec (.sbcHlPair .de) s = sbcHl de ∧ exec (.sbcHlPair .hl) s = sbcHl hl ∧
      exec (.sbcHlPair .sp) s = sbcHl s.sp)) ∧
  (∀ s : State,
    (exec (.incPair .bc) s = .next (s.setBc (s.bc + 1#16)) ∧ exec (.incPair .de) s = .next (s.setDe (s.de + 1#16)) ∧
      exec (.incPair .hl) s = .next (s.setHl (s.hl + 1#16)) ∧
      exec (.incPair .sp) s = .next { s with sp := s.sp + 1#16 }) ∧
    (exec (.decPair .bc) s = .next (s.setBc (s.bc - 1#16)) ∧ exec (.decPair .de) s = .next (s.setDe (s.de - 1#16)) ∧
      exec (.decPair .hl) s = .next (s.setHl (s.hl - 1#16)) ∧
      exec (.decPair .sp) s = .next { s with sp := s.sp - 1#16 }) ∧
    exec .incIx s = .next { s with ix := s.ix + 1#16 } ∧ exec .incIy s = .next { s with iy := s.iy + 1#16 } ∧
    exec .decIx s = .next { s with ix := s.ix - 1#16 } ∧ exec .decIy s = .next { s with iy := s.iy - 1#16 })

/-! ### Rotates, shifts and bits -/

/-- The accumulator rotates (R343 to R346) write H, N and C; the seven operations on a register or a byte of memory
(R335, R347 to R374) write all six flags. RLD and RRD rotate the three digits A[3:0], (HL)[7:4], (HL)[3:0]; A[7:4] and C
are kept, the flags are those of the new A (R375, R376). -/
def Obligations.RotatesAndShifts : Prop :=
  (∀ s : State,
    let into (p : Byte × Bool) : State :=
      { s with regs := { s.regs with a := p.1, f := { s.regs.f with h := false, n := false, c := p.2 } } }
    exec .rlca s = .next (into (rlc8 s.regs.a)) ∧ exec .rla s = .next (into (rl8 s.regs.f.c s.regs.a)) ∧
    exec .rrca s = .next (into (rrc8 s.regs.a)) ∧ exec .rra s = .next (into (rr8 s.regs.f.c s.regs.a))) ∧
  (∀ (s : State) (r : Reg8),
    let into (p : Byte × Bool) : State := (s.setReg r p.1).setFlags (shifted p).2
    exec (.rlcReg r) s = .next (into (rlc8 (s.getReg r))) ∧
    exec (.rlReg r) s = .next (into (rl8 s.regs.f.c (s.getReg r))) ∧
    exec (.rrcReg r) s = .next (into (rrc8 (s.getReg r))) ∧
    exec (.rrReg r) s = .next (into (rr8 s.regs.f.c (s.getReg r))) ∧
    exec (.slaReg r) s = .next (into (sla8 (s.getReg r))) ∧
    exec (.sraReg r) s = .next (into (sra8 (s.getReg r))) ∧
    exec (.srlReg r) s = .next (into (srl8 (s.getReg r)))) ∧
  (∀ s : State, s.mem.wf = true → s.Undisturbed →
    let on (hl : Instr) (ix iy : Byte → Instr) (f : Byte → Byte × Bool) : Prop :=
      OnEveryMemoryOperand s hl ix iy (fun m => (f m).1) (fun u m => u.setFlags (shifted (f m)).2)
    on .rlcMemHl .rlcMemIx .rlcMemIy rlc8 ∧ on .rlMemHl .rlMemIx .rlMemIy (rl8 s.regs.f.c) ∧
    on .rrcMemHl .rrcMemIx .rrcMemIy rrc8 ∧ on .rrMemHl .rrMemIx .rrMemIy (rr8 s.regs.f.c) ∧
    on .slaMemHl .slaMemIx .slaMemIy sla8 ∧ on .sraMemHl .sraMemIx .sraMemIy sra8 ∧
    on .srlMemHl .srlMemIx .srlMemIy srl8) ∧
  (∀ s : State, s.mem.wf = true → s.Undisturbed →
    let m := s.read8 s.hl
    let into (a : Byte) : State :=
      { s.afterRead8 s.hl with regs := { s.regs with
        a := a
        f := { s := a.msb, z := decide (a = 0#8), h := false, pv := parity a, n := false, c := s.regs.f.c } } }
    (∃ t, exec .rld s = .next t ∧
      TookByte (into (BitVec.ofNat 8 (s.regs.a.toNat / 16 * 16 + m.toNat / 16))) t s.hl
        (BitVec.ofNat 8 (m.toNat % 16 * 16 + s.regs.a.toNat % 16))) ∧
    (∃ t, exec .rrd s = .next t ∧
      TookByte (into (BitVec.ofNat 8 (s.regs.a.toNat / 16 * 16 + m.toNat % 16))) t s.hl
        (BitVec.ofNat 8 (s.regs.a.toNat % 16 * 16 + m.toNat / 16))))

/-- BIT (R391 to R394): Z is the complement of the bit, H = 1, N = 0, C is kept, S and P/V are free values; nothing else
changes. SET and RES (R395 to R402): the one bit of the register or byte, no flag. -/
def Obligations.BitInstructions : Prop :=
  (∀ (s : State) (b : BitVec 3),
    let tested (u : State) (v : Byte) : State :=
      { u with draws := u.draws + 2
               regs := { s.regs with f :=
                { s := Config.freeBit u.draws, z := !v.getLsbD b.toNat, h := true
                  pv := Config.freeBit (u.draws + 1), n := false, c := s.regs.f.c } } }
    let onMemory (i : Instr) (a : Word) : Prop := exec i s = .next (tested (s.afterRead8 a) (s.read8 a))
    (∀ r, exec (.bitReg b r) s = .next (tested s (s.getReg r))) ∧
    onMemory (.bitMemHl b) (s.regs.h ++ s.regs.l) ∧
    (∀ d, onMemory (.bitMemIx b d) (s.ix + d.signExtend 16)) ∧
    (∀ d, onMemory (.bitMemIy b d) (s.iy + d.signExtend 16))) ∧
  (∀ (v : Byte) (b : BitVec 3) (k : Nat), k < 8 →
    (setBit8 b v).getLsbD k = (decide (k = b.toNat) || v.getLsbD k) ∧
    (resetBit8 b v).getLsbD k = (!decide (k = b.toNat) && v.getLsbD k)) ∧
  (∀ (s : State) (b : BitVec 3) (r : Reg8),
    exec (.setReg b r) s = .next (s.setReg r (setBit8 b (s.getReg r))) ∧
    exec (.resReg b r) s = .next (s.setReg r (resetBit8 b (s.getReg r)))) ∧
  (∀ (s : State) (b : BitVec 3), s.mem.wf = true → s.Undisturbed →
    OnEveryMemoryOperand s (.setMemHl b) (.setMemIx b) (.setMemIy b) (setBit8 b) (fun u _ => u) ∧
    OnEveryMemoryOperand s (.resMemHl b) (.resMemIx b) (.resMemIy b) (resetBit8 b) (fun u _ => u))

/-! ### Jumps, calls and returns. PC is past the instruction in the state a meaning is given. -/

/-- The jumps (R411 to R421): PC and, for DJNZ, B change, nothing else. -/
def Obligations.Jumps : Prop :=
  ∀ s : State,
    let rel (taken : Bool) (e : Byte) : State :=
      if taken then { s with pc := s.pc + e.signExtend 16 } else s
    (∀ nn, exec (.jp nn) s = .next { s with pc := nn }) ∧
    (∀ cc nn, exec (.jpCond cc nn) s = .next (if condHolds cc s.regs.f = true then { s with pc := nn } else s)) ∧
    (∀ e, exec (.jr e) s = .next (rel true e)) ∧
    (∀ e, exec (.jrC e) s = .next (rel s.regs.f.c e)) ∧
    (∀ e, exec (.jrNc e) s = .next (rel (!s.regs.f.c) e)) ∧
    (∀ e, exec (.jrZ e) s = .next (rel s.regs.f.z e)) ∧
    (∀ e, exec (.jrNz e) s = .next (rel (!s.regs.f.z) e)) ∧
    exec .jpHl s = .next { s with pc := s.regs.h ++ s.regs.l } ∧
    exec .jpIx s = .next { s with pc := s.ix } ∧
    exec .jpIy s = .next { s with pc := s.iy } ∧
    (∀ e, exec (.djnz e) s =
      .next { s with regs := { s.regs with b := s.regs.b - 1#8 }
                     pc := if s.regs.b = 1#8 then s.pc else s.pc + e.signExtend 16 })

/-- Calls and restarts push PC, the high byte at SP - 1 and then the low byte at SP - 2, and jump (R422 to R424,
R429). -/
def Obligations.CallsAndRestarts : Prop :=
  ∀ s : State, s.mem.wf = true → s.Undisturbed →
    let called (t : State) (target : Word) : Prop :=
      TookTwo { s with sp := s.sp - 2#16, pc := target } t (s.sp - 1#16) (s.pc.extractLsb' 8 8) (s.sp - 2#16)
        (s.pc.extractLsb' 0 8)
    (∀ nn, ∃ t, exec (.call nn) s = .next t ∧ called t nn) ∧
    (∀ cc nn, condHolds cc s.regs.f = true → ∃ t, exec (.callCond cc nn) s = .next t ∧ called t nn) ∧
    (∀ cc nn, condHolds cc s.regs.f = false → exec (.callCond cc nn) s = .next s) ∧
    (∀ p, ∃ t, exec (.rst p) s = .next t ∧ called t (0x00#8 ++ p))

/-- Returns pop PC, the low byte read first (R422, R425 to R428); RETN copies IFF2 to IFF1; RETI leaves both alone, or
does likewise where RETI_COPIES_IFF2 says so (log 16), and is seen by the devices, which is all that happens to them. -/
def Obligations.Returns : Prop :=
  ∀ s : State,
    let popped (s : State) : State :=
      { (s.afterRead8 s.sp).afterRead8 (s.sp + 1#16) with
        pc := (s.afterRead8 s.sp).read8 (s.sp + 1#16) ++ s.read8 s.sp
        sp := s.sp + 2#16 }
    exec .ret s = .next (popped s) ∧
    (∀ cc, exec (.retCond cc) s = .next (if condHolds cc s.regs.f = true then popped s else s)) ∧
    exec .retn s = .next { popped s with iff1 := s.iff2 } ∧
    exec .reti s =
      .next { popped s.retiSeen with iff1 := if s.params.retiCopiesIff2 = true then s.iff2 else s.iff1 } ∧
    s.retiSeen = { s with devices := s.retiSeen.devices, busLog := .reti :: s.busLog }

/-! ### Input and output -/

/-- IN A,(n), IN r,(C), OUT (n),A and OUT (C),r (R450 to R452, R457, R458): one I/O cycle at the 16-bit port, as
InputOutputCycles says; the flags change in IN r,(C) alone; register code 110 stores the byte nowhere. -/
def Obligations.SingleInputAndOutput : Prop :=
  (∀ (s : State) (n : Byte),
    exec (.inAImm n) s =
      .next ((s.afterIoRead (s.regs.a ++ n)).setReg .a (s.ioValue (s.regs.a ++ n))) ∧
    exec (.outImmA n) s = .next (s.ioWrite (s.regs.a ++ n) s.regs.a)) ∧
  (∀ (s : State) (r : Reg8),
    let port := s.regs.b ++ s.regs.c
    let v := s.ioValue port
    let flagged : State :=
      (s.afterIoRead port).setFlags
        { s := v.msb, z := decide (v = 0#8), h := false, pv := parity v, n := false, c := s.regs.f.c }
    exec (.inRegC (.reg r)) s = .next (flagged.setReg r v) ∧
    exec (.inRegC .flagsOnly) s = .next flagged ∧
    exec (.outCReg r) s = .next (s.ioWrite port (s.getReg r)))

/-- The eight block I/O instructions, one iteration (R450, R453 to R456, R459 to R462): the inputs use B before its
decrement on A15 to A8, the outputs B after it, or before it where BLOCK_OUT_B_PHASE says so (log 15); Z and N are
given, S, H, P/V and C are free values; a repeating one puts PC back until B is 0. -/
def Obligations.BlockInputAndOutput : Prop :=
  ∀ s : State,
    let b := s.regs.b - 1#8
    let flags (k : Nat) : Flags :=
      { s := Config.freeBit k, z := decide (b = 0#8), h := Config.freeBit (k + 1)
        pv := Config.freeBit (k + 2), n := true, c := Config.freeBit (k + 3) }
    let done (u : State) (δ pc : Word) : State :=
      State.setFlags { (u.setHl (s.hl + δ)).setReg .b b with draws := u.draws + 4, pc := pc } (flags u.draws)
    let pc' : Word := if s.regs.b = 1#8 then s.pc else s.pc - 2#16
    let inPort := s.regs.b ++ s.regs.c
    let outPort := (if s.params.blockOutBAfter = true then b else s.regs.b) ++ s.regs.c
    let input (i : Instr) (δ pc : Word) : Prop :=
      ∃ t, exec i s = .next t ∧ TookByte (done (s.afterIoRead inPort) δ pc) t s.hl (s.ioValue inPort)
    let output (i : Instr) (δ pc : Word) : Prop :=
      exec i s = .next (done ((s.afterRead8 s.hl).ioWrite outPort (s.read8 s.hl)) δ pc)
    (s.mem.wf = true → s.Undisturbed →
      input .ini 1#16 s.pc ∧ input .ind (-1#16) s.pc ∧ input .inir 1#16 pc' ∧ input .indr (-1#16) pc') ∧
    output .outi 1#16 s.pc ∧ output .outd (-1#16) s.pc ∧ output .otir 1#16 pc' ∧ output .otdr (-1#16) pc'

/-! ### The platform devices -/

/-- The timer's time interval (R561, R563, R567): a channel in timer mode (D6 = 0) that has just been loaded counts CLK
x P x T clock periods, P being 256 or 16 as D5 says; before the last of them it has requested nothing and pulsed no
ZC/TO, with it it is loaded again, pulses, and requests if enabled (D7). That holds whatever the other channels do and
however the outputs are wired. -/
def Obligations.CtcTimerInterval : Prop :=
  ∀ (c : Ctc) (k : BitVec 2),
    let x := c.channel k
    let periods := (if x.control.getLsbD 5 then 256 else 16) * countOf x.timeConstant
    x.run = .counting → x.control.getLsbD 6 = false → x.prescale = 0 → x.down = x.timeConstant →
    (∀ t, t < periods →
      ((c.clock t).channel k).pending = x.pending ∧ ((c.clock t).channel k).zeroCounts = x.zeroCounts) ∧
    (c.clock periods).channel k =
      { x with pending := x.pending || x.control.getLsbD 7, zeroCounts := x.zeroCounts + 1 }

/-- Counter mode (D6 = 1), the trigger, the prescaler and ZC/TO (R561, R563, R564): T active edges make one zero count;
only the slope of D4 is active; a waiting timer starts with an active edge; a stopped channel counts nothing, and the
system clock counts in a running timer alone, through the prescaler (D5). A ZC/TO pulse of channels 0 to 2, whether a
clock period, an edge or a written word makes it, is an active edge at every channel wired to it, and at no other; if
that makes such a channel pulse in its turn, the channels wired to that one get an active edge, and so on, whatever the
wiring as long as it runs in no circle: `depth` numbers the channels so that each comes after the one that drives it.
Channel 3 has no such output. Clauses that are the model's: that a pulse is one active edge whichever the slope, and
that in a clock period, and of several channels wired to one output, the lowest-numbered comes first (log 20); that a
waiting channel switched to counter mode counts the edge that ends its waiting (log 21). -/
def Obligations.CtcCounting : Prop :=
  (∀ x : CtcChannel, x.run = .counting → x.control.getLsbD 6 = true → x.down = x.timeConstant →
    (∀ t, t < countOf x.timeConstant →
      (CtcChannel.activeEdge^[t] x).pending = x.pending ∧ (CtcChannel.activeEdge^[t] x).zeroCounts = x.zeroCounts) ∧
    CtcChannel.activeEdge^[countOf x.timeConstant] x =
      { x with pending := x.pending || x.control.getLsbD 7, zeroCounts := x.zeroCounts + 1 }) ∧
  (∀ (x : CtcChannel) (rising : Bool),
    x.clkTrg rising = if rising = x.control.getLsbD 4 then x.activeEdge else x) ∧
  (∀ x : CtcChannel, x.control.getLsbD 6 = false →
    x.activeEdge = if x.run = .waiting then { x with run := .counting, prescale := 0 } else x) ∧
  (∀ x : CtcChannel, x.control.getLsbD 6 = true → x.run = .waiting →
    x.activeEdge = CtcChannel.activeEdge { x with run := .counting }) ∧
  (∀ x : CtcChannel, x.run = .stopped → x.activeEdge = x) ∧
  (∀ x : CtcChannel, x.run ≠ .counting ∨ x.control.getLsbD 6 = true → x.tick = x) ∧
  (∀ x : CtcChannel, x.run = .counting → x.control.getLsbD 6 = false →
    x.tick =
      if x.prescale + 1 < (if x.control.getLsbD 5 then 256 else 16) then { x with prescale := x.prescale + 1 }
      else if x.down = 1#8 then
        { x with prescale := 0, down := x.timeConstant, pending := x.pending || x.control.getLsbD 7
                 zeroCounts := x.zeroCounts + 1 }
      else { x with prescale := 0, down := x.down - 1#8 }) ∧
  (∀ (c : Ctc) (k : BitVec 2) (rising : Bool),
    c.clkTrg k rising = c.update k (CtcChannel.clkTrg rising) ∧
    c.tick = (((c.update 0#2 CtcChannel.tick).update 1#2 CtcChannel.tick).update 2#2 CtcChannel.tick).update 3#2
      CtcChannel.tick) ∧
  (∀ (x : CtcChannel) (rising : Bool) (v : Byte),
    (x.clkTrg rising).source = x.source ∧ x.tick.source = x.source ∧ (x.write v).source = x.source) ∧
  (∀ (c : Ctc) (k j : BitVec 2) (f : CtcChannel → CtcChannel), (∀ x, (f x).source = x.source) → k ≠ 3#2 → j ≠ k →
    (∀ i, (c.channel i).source = some k ↔ i = j) → (∀ i, (c.channel i).source ≠ some j) →
    let x := f (c.channel k)
    c.update k f =
      if x.zeroCounts = (c.channel k).zeroCounts then c.setChannel k x
      else (c.setChannel k x).setChannel j (c.channel j).activeEdge) ∧
  (∀ (c : Ctc) (k : BitVec 2) (f : CtcChannel → CtcChannel) (depth : BitVec 2 → Nat),
    (∀ x, (f x).source = x.source) → (∀ i, depth i < 4) →
    (∀ i j, j ≠ 3#2 → (c.channel i).source = some j → depth j < depth i) →
    k ≠ 3#2 → (f (c.channel k)).zeroCounts ≠ (c.channel k).zeroCounts →
    let wired (j : BitVec 2) (d : Ctc) : Ctc :=
      if (c.channel j).source = some k then d.update j CtcChannel.activeEdge else d
    c.update k f = wired 3#2 (wired 2#2 (wired 1#2 (wired 0#2 (c.setChannel k (f (c.channel k))))))) ∧
  (∀ (c : Ctc) (k : BitVec 2) (f : CtcChannel → CtcChannel), (∀ x, (f x).source = x.source) →
    k = 3#2 ∨ (f (c.channel k)).zeroCounts = (c.channel k).zeroCounts ∨ (∀ i, (c.channel i).source ≠ some k) →
    c.update k f = c.setChannel k (f (c.channel k)))

/-- Programming a CTC channel (R562 to R566): what a written byte is taken as, and what it does; the vector; the read of
the down-counter; the hardware reset (R566, R573). Clauses that are the model's (log 21): a control word leaves a
pending request pending and, with D1 = 0 and the slope unchanged, leaves the counter running as it was, mode (D6) and
factor (D5) switched at once; a vector word (D0 = 0) at the ports of channels 1 to 3 does nothing; a constant written
while the channel waits for its trigger leaves it waiting if D3 still says so. That the reset leaves the time constant,
the down-counter and the vector at drawn values, and that a channel then awaits no time constant, is log 22; which chips
the CPU's RESET reaches is a field of the chip (R573, log 20). -/
def Obligations.CtcProgramming : Prop :=
  (∀ (x : CtcChannel) (v : Byte), x.constantNext = true →
    x.write v = if x.run = .counting then { x with timeConstant := v, constantNext := false }
      else { x with timeConstant := v, constantNext := false, down := v, prescale := 0
                    run := if x.control.getLsbD 6 = false ∧ x.control.getLsbD 3 = true then .waiting else .counting }) ∧
  (∀ (x : CtcChannel) (v : Byte), x.constantNext = false → v.getLsbD 0 = true →
    let x1 : CtcChannel := { x with control := v, constantNext := v.getLsbD 2 }
    x.write v =
      if v.getLsbD 1 = true then { x1 with run := .stopped }
      else if v.getLsbD 4 = x.control.getLsbD 4 then x1
      else x1.activeEdge) ∧
  (∀ (x : CtcChannel) (v : Byte), x.constantNext = false → v.getLsbD 0 = false → x.write v = x) ∧
  (∀ (c : Ctc) (v : Byte), c.ch0.constantNext = false → v.getLsbD 0 = false →
    c.write 0#2 v = { c with vector := v &&& 0xF8#8 }) ∧
  (∀ (c : Ctc) (k : BitVec 2) (v : Byte), k ≠ 0#2 ∨ c.ch0.constantNext = true ∨ v.getLsbD 0 = true →
    c.write k v = c.update k (CtcChannel.write v) ∧
    (k = 3#2 ∨ ((c.channel k).write v).zeroCounts = (c.channel k).zeroCounts ∨ (∀ i, (c.channel i).source ≠ some k) →
      c.write k v = c.setChannel k ((c.channel k).write v))) ∧
  (∀ x : CtcChannel, x.counterMode = x.control.getLsbD 6 ∧ x.interruptEnabled = x.control.getLsbD 7 ∧
    x.factor = if x.control.getLsbD 5 then 256 else 16) ∧
  (∀ (c : Ctc) (k : BitVec 2),
    c.vectorOf k = (c.vector &&& 0xF8#8) ||| BitVec.ofNat 8 (2 * k.toNat) ∧ c.read k = (c.channel k).down) ∧
  (∀ (c : Ctc) (draw : Nat → Byte) (k : BitVec 2),
    (c.hardReset draw).channel k =
      { c.channel k with control := (c.channel k).control &&& 0x7F#8, constantNext := false
                         timeConstant := draw (2 * k.toNat), down := draw (2 * k.toNat + 1), prescale := 0
                         run := .stopped, pending := false, underService := false } ∧
    (c.hardReset draw).base = c.base ∧ (c.hardReset draw).resetWired = c.resetWired) ∧
  (∀ (s : State) (n : Nat) (c : Ctc), s.devices[n]? = some (.ctc c) →
    if c.resetWired then ∃ draw, s.hardReset.devices[n]? = some (.ctc (c.hardReset draw))
    else s.hardReset.devices[n]? = some (.ctc c))

/-- The interrupt daisy chain (R515 to R519): its slots, in the order of the devices, channel 0 first in a CTC and port
A first in a PIO, each with its enable, its request and its vector (R565); which slot drives INT, that it supplies its
vector at the acknowledge and goes under service, that RETI releases the slot under service of highest priority, and
that a slot under service keeps every lower one from requesting. That the slot that answers an acknowledge is chosen
before that cycle's M1 reaches the devices is the model's (log 23). -/
def Obligations.DaisyChain : Prop :=
  (chain [] = [] ∧ ∀ d ds, chain (d :: ds) = d.slots ++ chain ds) ∧
  (∀ (c : Ctc) (k : BitVec 2), (Device.ctc c).slots.length = 4 ∧
    (Device.ctc c).slots[k.toNat]? =
      some { enabled := (c.channel k).control.getLsbD 7, pending := (c.channel k).pending
             underService := (c.channel k).underService, vector := c.vector.extractLsb' 3 5 ++ k ++ 0#1 }) ∧
  (∀ p : Pio, (Device.pio p).slots =
    [{ enabled := p.portA.enabled, pending := p.portA.pending, underService := p.portA.underService
       vector := p.portA.vector },
     { enabled := p.portB.enabled, pending := p.portB.pending, underService := p.portB.underService
       vector := p.portB.vector }]) ∧
  (∀ (xs : List Slot) (k : Nat), requester xs = some k ↔
    (∃ x, xs[k]? = some x ∧ x.pending = true ∧ x.enabled = true) ∧
    ∀ j y, j < k → xs[j]? = some y → y.underService = false ∧ y.pending = false) ∧
  (∀ (s : State) (b : Byte) (k : Nat) (x : Slot), requester (chain s.devices) = some k → (chain s.devices)[k]? = some x →
    s.chainRequests = true ∧ s.ackByte b = x.vector ∧
    chain s.answerAck.devices = (chain s.devices).set k { x with pending := false, underService := true }) ∧
  (∀ (s : State) (b : Byte), requester (chain s.devices) = none →
    s.chainRequests = false ∧ s.ackByte b = b ∧ s.answerAck.devices = s.devices) ∧
  (∀ (s : State) (b : Byte),
    s.afterIntAck b =
      State.endCycle { s with r := s.r.extractLsb' 7 1 ++ (s.r.extractLsb' 0 7 + 1#7)
                              devices := s.answerAck.devices.map Device.m1
                              busLog := .intAck (s.ackByte b) :: s.busLog }) ∧
  (∀ (s : State) (k : Nat) (x : Slot), inService (chain s.devices) = some k → (chain s.devices)[k]? = some x →
    chain s.retiSeen.devices = (chain s.devices).set k { x with underService := false }) ∧
  (∀ s : State, inService (chain s.devices) = none → s.retiSeen.devices = s.devices) ∧
  (∀ (xs : List Slot) (k : Nat), inService xs = some k ↔
    (∃ x, xs[k]? = some x ∧ x.underService = true) ∧ ∀ j y, j < k → xs[j]? = some y → y.underService = false) ∧
  (∀ (xs : List Slot) (j k : Nat) (y : Slot), xs[j]? = some y → y.underService = true → requester xs = some k → k ≤ j)

/-- The PIO's ports and control words (R550, R552, in the layouts it restores): which port an address is, which word a
byte is, what it sets; the interrupt enable takes effect at the next M1; and the PIO's reset (R554, R574, 93 U22), after
which all but the lines is a free value (log 24). Clauses that are the model's (log 23): a word that disables interrupts
leaves a pending request pending; a port that is enabled stays so while a new enable waits for its M1; a mode word
leaves the other registers, Ready and a pending request alone; a word that no layout covers does nothing; a word that
mode, direction, mask or mask control depend on, and the M1 that enables, has the mode 3 equation tested at once
(`testLines`, see PioTransfers); a read of a control address is a free value; port B's data port works as port B's own
mode has it also while port A is in mode 2. -/
def Obligations.PioControlWords : Prop :=
  (∀ (p : PioPort) (b : Bool) (v : Byte),
    (p.next = .direction → p.writeControl b v = PioPort.testLines b { p with direction := v, next := .command }) ∧
    (p.next = .mask → p.writeControl b v = PioPort.testLines b { p with mask := v, next := .command }) ∧
    (p.next = .command → v.getLsbD 0 = false → p.writeControl b v = { p with vector := v }) ∧
    (p.next = .command → v &&& 0x0F#8 = 0x0F#8 →
      p.writeControl b v = PioPort.testLines b
        { p with mode := if v.getLsbD 7 then (if v.getLsbD 6 then .bitControl else .bidirectional)
                         else (if v.getLsbD 6 then .input else .output)
                 next := if v.getLsbD 7 && v.getLsbD 6 then .direction else .command }) ∧
    (p.next = .command → v &&& 0x0F#8 = 0x07#8 →
      p.writeControl b v = PioPort.testLines b
        { p with enabled := v.getLsbD 7 && p.enabled, enableNext := v.getLsbD 7
                 andLogic := v.getLsbD 6, activeHigh := v.getLsbD 5
                 pending := !v.getLsbD 4 && p.pending
                 next := if v.getLsbD 4 then .mask else .command }) ∧
    (p.next = .command → v &&& 0x0F#8 = 0x03#8 →
      p.writeControl b v = { p with enabled := v.getLsbD 7 && p.enabled, enableNext := v.getLsbD 7 }) ∧
    (p.next = .command → v.getLsbD 0 = true → v &&& 0x0F#8 ∉ [0x0F#8, 0x07#8, 0x03#8] → p.writeControl b v = p)) ∧
  (∀ (p : PioPort) (b : Bool),
    p.m1 b =
      if p.enableNext = true then
        if p.enabled = true then { p with enableNext := false }
        else PioPort.testLines b { p with enabled := true, enableNext := false }
      else p) ∧
  (∀ (p : Pio) (c : Ctc),
    Device.m1 (.pio p) =
      .pio { p with portA := p.portA.m1 false, portB := p.portB.m1 (decide (p.portA.mode = .bidirectional)) } ∧
    Device.m1 (.ctc c) = .ctc c) ∧
  (∀ (p : Pio) (v free : Byte),
    p.write 0#2 v = { p with portA := p.portA.writeData v } ∧
    p.write 1#2 v = { p with portB := p.portB.writeData v } ∧
    (p.portA.mode ≠ .bidirectional → p.write 2#2 v = { p with portA := p.portA.writeControl false v }) ∧
    p.write 3#2 v = { p with portB := p.portB.writeControl (decide (p.portA.mode = .bidirectional)) v } ∧
    p.read free 0#2 = p.portA.dataByte free ∧ p.read free 1#2 = p.portB.dataByte free ∧
    p.read free 2#2 = free ∧ p.read free 3#2 = free) ∧
  (∀ (p : Pio) (n k : Nat) (b : Bool),
    (Device.pio p).event n (.pioReset k) = .pio (p.reset n) ∧ (p.reset n).base = p.base ∧
    (let x := if b then (p.reset n).portB else (p.reset n).portA
     x.lines = (if b then p.portB else p.portA).lines ∧ x.next = .command ∧ x.vector.getLsbD 0 = false))

/-- What a PIO port does with data in modes 0, 1 and 3 (R551, R553): a mode 0 write makes Ready active and its strobe
requests; a mode 1 strobe latches the byte and requests, and the read makes Ready active again; a mode 3 read mixes
output register bits and input register bits. In mode 3 a request is made when the unmasked inputs satisfy the equation,
outputs left out. A request is made only while the port's interrupt enable is set. Clauses that are the model's (log
23): mode 3 reads the lines as they are, through the input register; the strobe is one pulse that latches and requests
together; Ready goes inactive on a mode 0 strobe; a mode 1 write only loads the output register; a mode 3 strobe does
nothing; with no line monitored the equation is false; nothing is requested before the direction or mask word has
come. -/
def Obligations.PioTransfers : Prop :=
  (∀ (p : PioPort) (v : Byte), p.mode = .output →
    p.writeData v = { p with outputReg := v, ready := true } ∧
    p.strobe v = { p with ready := false, pending := p.pending || p.enabled }) ∧
  (∀ (p : PioPort) (v free : Byte), p.mode = .input →
    p.strobe v = { p with inputReg := v, ready := false, pending := p.pending || p.enabled } ∧
    (p.strobe v).dataByte free = v ∧ p.afterRead = { p with ready := true } ∧
    p.writeData v = { p with outputReg := v }) ∧
  (∀ (p : PioPort) (v free : Byte), p.mode = .bitControl →
    (∀ k, k < 8 →
      (p.dataByte free).getLsbD k = if p.direction.getLsbD k then p.lines.getLsbD k else p.outputReg.getLsbD k) ∧
    p.afterRead = { p with inputReg := p.lines } ∧ p.writeData v = { p with outputReg := v } ∧ p.strobe v = p) ∧
  (∀ p : PioPort, p.mode = .bitControl → p.next = .command → p.andLogic = false →
    p.testLines false = { p with pending := p.pending ||
      (p.enabled && decide (∃ k : Fin 8, p.direction.getLsbD k = true ∧ p.mask.getLsbD k = false ∧
        p.lines.getLsbD k = p.activeHigh)) }) ∧
  (∀ p : PioPort, p.mode = .bitControl → p.next = .command → p.andLogic = true →
    p.testLines false = { p with pending := p.pending ||
      (p.enabled && decide ((∃ k : Fin 8, p.direction.getLsbD k = true ∧ p.mask.getLsbD k = false) ∧
        ∀ k : Fin 8, p.direction.getLsbD k = true → p.mask.getLsbD k = false →
          p.lines.getLsbD k = p.activeHigh)) }) ∧
  (∀ (p : PioPort) (b : Bool), p.mode ≠ .bitControl ∨ p.next ≠ .command ∨ b = true → p.testLines b = p) ∧
  (∀ (p : Pio) (v : Byte), p.portA.mode ≠ .bidirectional →
    p.strobeA v = { p with portA := p.portA.strobe v } ∧ p.strobeB v = { p with portB := p.portB.strobe v } ∧
    p.setLines false v = { p with portA := PioPort.testLines false { p.portA with lines := v } } ∧
    p.setLines true v = { p with portB := PioPort.testLines false { p.portB with lines := v } } ∧
    p.afterRead 0#2 = { p with portA := p.portA.afterRead } ∧ p.afterRead 1#2 = { p with portB := p.portB.afterRead })

/-- Port A in mode 2 (R551, R553): output through port A's strobe, under port A's vector; input through port B's strobe
and Ready, under port B's vector; port B, in bit mode, issues no interrupt of its own. Clauses that are the model's (log
23): what Ready does; that a control word which takes port A out of mode 2 has port B's equation tested; that port B
takes a mode 2 word as it stands and is then an output port. -/
def Obligations.PioBidirectional : Prop :=
  (∀ (p : Pio) (v free : Byte), p.portA.mode = .bidirectional →
    p.write 0#2 v = { p with portA := { p.portA with outputReg := v, ready := true } } ∧
    p.strobeA v = { p with portA := { p.portA with ready := false, pending := p.portA.pending || p.portA.enabled } } ∧
    p.strobeB v =
      { p with portA := { p.portA with inputReg := v }
               portB := { p.portB with ready := false, pending := p.portB.pending || p.portB.enabled } } ∧
    p.read free 0#2 = p.portA.inputReg ∧
    p.afterRead 0#2 = { p with portB := { p.portB with ready := true } } ∧
    (p.portB.mode = .bitControl → p.setLines true v = { p with portB := { p.portB with lines := v } })) ∧
  (∀ (p : Pio) (v : Byte), p.portA.mode = .bidirectional →
    let a := p.portA.writeControl false v
    p.write 2#2 v = { p with portA := a
                             portB := if a.mode = .bidirectional then p.portB else p.portB.testLines false }) ∧
  (∀ (p : PioPort) (v : Byte), p.mode = .bidirectional →
    p.strobe v = { p with ready := false, pending := p.pending || p.enabled } ∧
    p.writeData v = { p with outputReg := v, ready := true })
end

