-- ==== Sys2Proof/Laws/State.lean ====
section
/-! SUPPORT. The small lemmas of State: what each named update leaves unchanged and what it writes, one lemma per
field. A bus cycle lets another bus master act at its end (20_memory.md R75), which no register of the CPU sees: for an
operation that makes bus cycles the lemmas are about the CPU's own fields, the platform's map and parameters, and the
queue of inputs. -/

namespace Sys2Proof.Machine

variable (s : State)

/-! ### storeMem -/

@[simp] theorem State.storeMem_regs (a : Word) (v : Byte) : (s.storeMem a v).regs = s.regs := rfl
@[simp] theorem State.storeMem_alt (a : Word) (v : Byte) : (s.storeMem a v).alt = s.alt := rfl
@[simp] theorem State.storeMem_ix (a : Word) (v : Byte) : (s.storeMem a v).ix = s.ix := rfl
@[simp] theorem State.storeMem_iy (a : Word) (v : Byte) : (s.storeMem a v).iy = s.iy := rfl
@[simp] theorem State.storeMem_sp (a : Word) (v : Byte) : (s.storeMem a v).sp = s.sp := rfl
@[simp] theorem State.storeMem_pc (a : Word) (v : Byte) : (s.storeMem a v).pc = s.pc := rfl
@[simp] theorem State.storeMem_i (a : Word) (v : Byte) : (s.storeMem a v).i = s.i := rfl
@[simp] theorem State.storeMem_r (a : Word) (v : Byte) : (s.storeMem a v).r = s.r := rfl
@[simp] theorem State.storeMem_iff1 (a : Word) (v : Byte) : (s.storeMem a v).iff1 = s.iff1 := rfl
@[simp] theorem State.storeMem_iff2 (a : Word) (v : Byte) : (s.storeMem a v).iff2 = s.iff2 := rfl
@[simp] theorem State.storeMem_im (a : Word) (v : Byte) : (s.storeMem a v).im = s.im := rfl
@[simp] theorem State.storeMem_nmiPending (a : Word) (v : Byte) : (s.storeMem a v).nmiPending = s.nmiPending := rfl
@[simp] theorem State.storeMem_noSample (a : Word) (v : Byte) : (s.storeMem a v).noSample = s.noSample := rfl
@[simp] theorem State.storeMem_halted (a : Word) (v : Byte) : (s.storeMem a v).halted = s.halted := rfl
@[simp] theorem State.storeMem_busGranted (a : Word) (v : Byte) : (s.storeMem a v).busGranted = s.busGranted := rfl
@[simp] theorem State.storeMem_memMap (a : Word) (v : Byte) : (s.storeMem a v).memMap = s.memMap := rfl
@[simp] theorem State.storeMem_params (a : Word) (v : Byte) : (s.storeMem a v).params = s.params := rfl
@[simp] theorem State.storeMem_devices (a : Word) (v : Byte) : (s.storeMem a v).devices = s.devices := rfl
@[simp] theorem State.storeMem_inputs (a : Word) (v : Byte) : (s.storeMem a v).inputs = s.inputs := rfl
@[simp] theorem State.storeMem_ioReplies (a : Word) (v : Byte) : (s.storeMem a v).ioReplies = s.ioReplies := rfl
@[simp] theorem State.storeMem_memReplies (a : Word) (v : Byte) : (s.storeMem a v).memReplies = s.memReplies := rfl
@[simp] theorem State.storeMem_cycleDma (a : Word) (v : Byte) : (s.storeMem a v).cycleDma = s.cycleDma := rfl
@[simp] theorem State.storeMem_busLog (a : Word) (v : Byte) : (s.storeMem a v).busLog = s.busLog := rfl
@[simp] theorem State.storeMem_draws (a : Word) (v : Byte) : (s.storeMem a v).draws = s.draws := rfl
@[simp] theorem State.storeMem_tStates (a : Word) (v : Byte) : (s.storeMem a v).tStates = s.tStates := rfl

/-! ### answerIo -/

@[simp] theorem State.answerIo_regs (port : Word) : (s.answerIo port).regs = s.regs := rfl
@[simp] theorem State.answerIo_alt (port : Word) : (s.answerIo port).alt = s.alt := rfl
@[simp] theorem State.answerIo_ix (port : Word) : (s.answerIo port).ix = s.ix := rfl
@[simp] theorem State.answerIo_iy (port : Word) : (s.answerIo port).iy = s.iy := rfl
@[simp] theorem State.answerIo_sp (port : Word) : (s.answerIo port).sp = s.sp := rfl
@[simp] theorem State.answerIo_pc (port : Word) : (s.answerIo port).pc = s.pc := rfl
@[simp] theorem State.answerIo_i (port : Word) : (s.answerIo port).i = s.i := rfl
@[simp] theorem State.answerIo_r (port : Word) : (s.answerIo port).r = s.r := rfl
@[simp] theorem State.answerIo_iff1 (port : Word) : (s.answerIo port).iff1 = s.iff1 := rfl
@[simp] theorem State.answerIo_iff2 (port : Word) : (s.answerIo port).iff2 = s.iff2 := rfl
@[simp] theorem State.answerIo_im (port : Word) : (s.answerIo port).im = s.im := rfl
@[simp] theorem State.answerIo_nmiPending (port : Word) : (s.answerIo port).nmiPending = s.nmiPending := rfl
@[simp] theorem State.answerIo_noSample (port : Word) : (s.answerIo port).noSample = s.noSample := rfl
@[simp] theorem State.answerIo_halted (port : Word) : (s.answerIo port).halted = s.halted := rfl
@[simp] theorem State.answerIo_busGranted (port : Word) : (s.answerIo port).busGranted = s.busGranted := rfl
@[simp] theorem State.answerIo_mem (port : Word) : (s.answerIo port).mem = s.mem := rfl
@[simp] theorem State.answerIo_memMap (port : Word) : (s.answerIo port).memMap = s.memMap := rfl
@[simp] theorem State.answerIo_params (port : Word) : (s.answerIo port).params = s.params := rfl
@[simp] theorem State.answerIo_inputs (port : Word) : (s.answerIo port).inputs = s.inputs := rfl
@[simp] theorem State.answerIo_memReplies (port : Word) : (s.answerIo port).memReplies = s.memReplies := rfl
@[simp] theorem State.answerIo_cycleDma (port : Word) : (s.answerIo port).cycleDma = s.cycleDma := rfl
@[simp] theorem State.answerIo_busLog (port : Word) : (s.answerIo port).busLog = s.busLog := rfl
@[simp] theorem State.answerIo_tStates (port : Word) : (s.answerIo port).tStates = s.tStates := rfl
@[simp] theorem State.answerIo_draws (port : Word) : (s.answerIo port).draws = s.draws + 1 := rfl

/-! ### storeIo -/

@[simp] theorem State.storeIo_regs (port : Word) (v : Byte) : (s.storeIo port v).regs = s.regs := rfl
@[simp] theorem State.storeIo_alt (port : Word) (v : Byte) : (s.storeIo port v).alt = s.alt := rfl
@[simp] theorem State.storeIo_ix (port : Word) (v : Byte) : (s.storeIo port v).ix = s.ix := rfl
@[simp] theorem State.storeIo_iy (port : Word) (v : Byte) : (s.storeIo port v).iy = s.iy := rfl
@[simp] theorem State.storeIo_sp (port : Word) (v : Byte) : (s.storeIo port v).sp = s.sp := rfl
@[simp] theorem State.storeIo_pc (port : Word) (v : Byte) : (s.storeIo port v).pc = s.pc := rfl
@[simp] theorem State.storeIo_i (port : Word) (v : Byte) : (s.storeIo port v).i = s.i := rfl
@[simp] theorem State.storeIo_r (port : Word) (v : Byte) : (s.storeIo port v).r = s.r := rfl
@[simp] theorem State.storeIo_iff1 (port : Word) (v : Byte) : (s.storeIo port v).iff1 = s.iff1 := rfl
@[simp] theorem State.storeIo_iff2 (port : Word) (v : Byte) : (s.storeIo port v).iff2 = s.iff2 := rfl
@[simp] theorem State.storeIo_im (port : Word) (v : Byte) : (s.storeIo port v).im = s.im := rfl
@[simp] theorem State.storeIo_nmiPending (port : Word) (v : Byte) :
    (s.storeIo port v).nmiPending = s.nmiPending := rfl
@[simp] theorem State.storeIo_noSample (port : Word) (v : Byte) : (s.storeIo port v).noSample = s.noSample := rfl
@[simp] theorem State.storeIo_halted (port : Word) (v : Byte) : (s.storeIo port v).halted = s.halted := rfl
@[simp] theorem State.storeIo_busGranted (port : Word) (v : Byte) :
    (s.storeIo port v).busGranted = s.busGranted := rfl
@[simp] theorem State.storeIo_mem (port : Word) (v : Byte) : (s.storeIo port v).mem = s.mem := rfl
@[simp] theorem State.storeIo_memMap (port : Word) (v : Byte) : (s.storeIo port v).memMap = s.memMap := rfl
@[simp] theorem State.storeIo_params (port : Word) (v : Byte) : (s.storeIo port v).params = s.params := rfl
@[simp] theorem State.storeIo_inputs (port : Word) (v : Byte) : (s.storeIo port v).inputs = s.inputs := rfl
@[simp] theorem State.storeIo_ioReplies (port : Word) (v : Byte) : (s.storeIo port v).ioReplies = s.ioReplies := rfl
@[simp] theorem State.storeIo_memReplies (port : Word) (v : Byte) :
    (s.storeIo port v).memReplies = s.memReplies := rfl
@[simp] theorem State.storeIo_cycleDma (port : Word) (v : Byte) : (s.storeIo port v).cycleDma = s.cycleDma := rfl
@[simp] theorem State.storeIo_busLog (port : Word) (v : Byte) : (s.storeIo port v).busLog = s.busLog := rfl
@[simp] theorem State.storeIo_draws (port : Word) (v : Byte) : (s.storeIo port v).draws = s.draws := rfl
@[simp] theorem State.storeIo_tStates (port : Word) (v : Byte) : (s.storeIo port v).tStates = s.tStates := rfl
@[simp] theorem State.storeIo_devices (port : Word) (v : Byte) :
    (s.storeIo port v).devices = s.devices.map (Device.write (lowByte port) v) := rfl

/-! ### logged -/

@[simp] theorem State.logged_regs (e : BusEvent) : (s.logged e).regs = s.regs := rfl
@[simp] theorem State.logged_alt (e : BusEvent) : (s.logged e).alt = s.alt := rfl
@[simp] theorem State.logged_ix (e : BusEvent) : (s.logged e).ix = s.ix := rfl
@[simp] theorem State.logged_iy (e : BusEvent) : (s.logged e).iy = s.iy := rfl
@[simp] theorem State.logged_sp (e : BusEvent) : (s.logged e).sp = s.sp := rfl
@[simp] theorem State.logged_pc (e : BusEvent) : (s.logged e).pc = s.pc := rfl
@[simp] theorem State.logged_i (e : BusEvent) : (s.logged e).i = s.i := rfl
@[simp] theorem State.logged_r (e : BusEvent) : (s.logged e).r = s.r := rfl
@[simp] theorem State.logged_iff1 (e : BusEvent) : (s.logged e).iff1 = s.iff1 := rfl
@[simp] theorem State.logged_iff2 (e : BusEvent) : (s.logged e).iff2 = s.iff2 := rfl
@[simp] theorem State.logged_im (e : BusEvent) : (s.logged e).im = s.im := rfl
@[simp] theorem State.logged_nmiPending (e : BusEvent) : (s.logged e).nmiPending = s.nmiPending := rfl
@[simp] theorem State.logged_noSample (e : BusEvent) : (s.logged e).noSample = s.noSample := rfl
@[simp] theorem State.logged_halted (e : BusEvent) : (s.logged e).halted = s.halted := rfl
@[simp] theorem State.logged_busGranted (e : BusEvent) : (s.logged e).busGranted = s.busGranted := rfl
@[simp] theorem State.logged_mem (e : BusEvent) : (s.logged e).mem = s.mem := rfl
@[simp] theorem State.logged_memMap (e : BusEvent) : (s.logged e).memMap = s.memMap := rfl
@[simp] theorem State.logged_params (e : BusEvent) : (s.logged e).params = s.params := rfl
@[simp] theorem State.logged_devices (e : BusEvent) : (s.logged e).devices = s.devices := rfl
@[simp] theorem State.logged_inputs (e : BusEvent) : (s.logged e).inputs = s.inputs := rfl
@[simp] theorem State.logged_ioReplies (e : BusEvent) : (s.logged e).ioReplies = s.ioReplies := rfl
@[simp] theorem State.logged_memReplies (e : BusEvent) : (s.logged e).memReplies = s.memReplies := rfl
@[simp] theorem State.logged_cycleDma (e : BusEvent) : (s.logged e).cycleDma = s.cycleDma := rfl
@[simp] theorem State.logged_draws (e : BusEvent) : (s.logged e).draws = s.draws := rfl
@[simp] theorem State.logged_tStates (e : BusEvent) : (s.logged e).tStates = s.tStates := rfl
@[simp] theorem State.logged_busLog (e : BusEvent) : (s.logged e).busLog = e :: s.busLog := rfl

/-! ### elapse -/

@[simp] theorem State.elapse_regs (t : Nat) : (s.elapse t).regs = s.regs := rfl
@[simp] theorem State.elapse_alt (t : Nat) : (s.elapse t).alt = s.alt := rfl
@[simp] theorem State.elapse_ix (t : Nat) : (s.elapse t).ix = s.ix := rfl
@[simp] theorem State.elapse_iy (t : Nat) : (s.elapse t).iy = s.iy := rfl
@[simp] theorem State.elapse_sp (t : Nat) : (s.elapse t).sp = s.sp := rfl
@[simp] theorem State.elapse_pc (t : Nat) : (s.elapse t).pc = s.pc := rfl
@[simp] theorem State.elapse_i (t : Nat) : (s.elapse t).i = s.i := rfl
@[simp] theorem State.elapse_r (t : Nat) : (s.elapse t).r = s.r := rfl
@[simp] theorem State.elapse_iff1 (t : Nat) : (s.elapse t).iff1 = s.iff1 := rfl
@[simp] theorem State.elapse_iff2 (t : Nat) : (s.elapse t).iff2 = s.iff2 := rfl
@[simp] theorem State.elapse_im (t : Nat) : (s.elapse t).im = s.im := rfl
@[simp] theorem State.elapse_nmiPending (t : Nat) : (s.elapse t).nmiPending = s.nmiPending := rfl
@[simp] theorem State.elapse_noSample (t : Nat) : (s.elapse t).noSample = s.noSample := rfl
@[simp] theorem State.elapse_halted (t : Nat) : (s.elapse t).halted = s.halted := rfl
@[simp] theorem State.elapse_busGranted (t : Nat) : (s.elapse t).busGranted = s.busGranted := rfl
@[simp] theorem State.elapse_mem (t : Nat) : (s.elapse t).mem = s.mem := rfl
@[simp] theorem State.elapse_memMap (t : Nat) : (s.elapse t).memMap = s.memMap := rfl
@[simp] theorem State.elapse_params (t : Nat) : (s.elapse t).params = s.params := rfl
@[simp] theorem State.elapse_inputs (t : Nat) : (s.elapse t).inputs = s.inputs := rfl
@[simp] theorem State.elapse_ioReplies (t : Nat) : (s.elapse t).ioReplies = s.ioReplies := rfl
@[simp] theorem State.elapse_memReplies (t : Nat) : (s.elapse t).memReplies = s.memReplies := rfl
@[simp] theorem State.elapse_cycleDma (t : Nat) : (s.elapse t).cycleDma = s.cycleDma := rfl
@[simp] theorem State.elapse_busLog (t : Nat) : (s.elapse t).busLog = s.busLog := rfl
@[simp] theorem State.elapse_draws (t : Nat) : (s.elapse t).draws = s.draws := rfl
@[simp] theorem State.elapse_tStates (t : Nat) : (s.elapse t).tStates = s.tStates + t := rfl
@[simp] theorem State.elapse_devices (t : Nat) : (s.elapse t).devices = s.devices.map (Device.clock t) := rfl

/-! ### m1Cycle -/

@[simp] theorem State.m1Cycle_regs : (s.m1Cycle).regs = s.regs := rfl
@[simp] theorem State.m1Cycle_alt : (s.m1Cycle).alt = s.alt := rfl
@[simp] theorem State.m1Cycle_ix : (s.m1Cycle).ix = s.ix := rfl
@[simp] theorem State.m1Cycle_iy : (s.m1Cycle).iy = s.iy := rfl
@[simp] theorem State.m1Cycle_sp : (s.m1Cycle).sp = s.sp := rfl
@[simp] theorem State.m1Cycle_pc : (s.m1Cycle).pc = s.pc := rfl
@[simp] theorem State.m1Cycle_i : (s.m1Cycle).i = s.i := rfl
@[simp] theorem State.m1Cycle_iff1 : (s.m1Cycle).iff1 = s.iff1 := rfl
@[simp] theorem State.m1Cycle_iff2 : (s.m1Cycle).iff2 = s.iff2 := rfl
@[simp] theorem State.m1Cycle_im : (s.m1Cycle).im = s.im := rfl
@[simp] theorem State.m1Cycle_nmiPending : (s.m1Cycle).nmiPending = s.nmiPending := rfl
@[simp] theorem State.m1Cycle_noSample : (s.m1Cycle).noSample = s.noSample := rfl
@[simp] theorem State.m1Cycle_halted : (s.m1Cycle).halted = s.halted := rfl
@[simp] theorem State.m1Cycle_busGranted : (s.m1Cycle).busGranted = s.busGranted := rfl
@[simp] theorem State.m1Cycle_mem : (s.m1Cycle).mem = s.mem := rfl
@[simp] theorem State.m1Cycle_memMap : (s.m1Cycle).memMap = s.memMap := rfl
@[simp] theorem State.m1Cycle_params : (s.m1Cycle).params = s.params := rfl
@[simp] theorem State.m1Cycle_inputs : (s.m1Cycle).inputs = s.inputs := rfl
@[simp] theorem State.m1Cycle_ioReplies : (s.m1Cycle).ioReplies = s.ioReplies := rfl
@[simp] theorem State.m1Cycle_memReplies : (s.m1Cycle).memReplies = s.memReplies := rfl
@[simp] theorem State.m1Cycle_cycleDma : (s.m1Cycle).cycleDma = s.cycleDma := rfl
@[simp] theorem State.m1Cycle_busLog : (s.m1Cycle).busLog = s.busLog := rfl
@[simp] theorem State.m1Cycle_draws : (s.m1Cycle).draws = s.draws := rfl
@[simp] theorem State.m1Cycle_tStates : (s.m1Cycle).tStates = s.tStates := rfl
@[simp] theorem State.m1Cycle_r : (s.m1Cycle).r = refreshed 1 s.r := rfl
@[simp] theorem State.m1Cycle_devices : (s.m1Cycle).devices = s.devices.map Device.m1 := rfl

/-! ### drew -/

@[simp] theorem State.drew_regs (n : Nat) : (s.drew n).regs = s.regs := rfl
@[simp] theorem State.drew_alt (n : Nat) : (s.drew n).alt = s.alt := rfl
@[simp] theorem State.drew_ix (n : Nat) : (s.drew n).ix = s.ix := rfl
@[simp] theorem State.drew_iy (n : Nat) : (s.drew n).iy = s.iy := rfl
@[simp] theorem State.drew_sp (n : Nat) : (s.drew n).sp = s.sp := rfl
@[simp] theorem State.drew_pc (n : Nat) : (s.drew n).pc = s.pc := rfl
@[simp] theorem State.drew_i (n : Nat) : (s.drew n).i = s.i := rfl
@[simp] theorem State.drew_r (n : Nat) : (s.drew n).r = s.r := rfl
@[simp] theorem State.drew_iff1 (n : Nat) : (s.drew n).iff1 = s.iff1 := rfl
@[simp] theorem State.drew_iff2 (n : Nat) : (s.drew n).iff2 = s.iff2 := rfl
@[simp] theorem State.drew_im (n : Nat) : (s.drew n).im = s.im := rfl
@[simp] theorem State.drew_nmiPending (n : Nat) : (s.drew n).nmiPending = s.nmiPending := rfl
@[simp] theorem State.drew_noSample (n : Nat) : (s.drew n).noSample = s.noSample := rfl
@[simp] theorem State.drew_halted (n : Nat) : (s.drew n).halted = s.halted := rfl
@[simp] theorem State.drew_busGranted (n : Nat) : (s.drew n).busGranted = s.busGranted := rfl
@[simp] theorem State.drew_mem (n : Nat) : (s.drew n).mem = s.mem := rfl
@[simp] theorem State.drew_memMap (n : Nat) : (s.drew n).memMap = s.memMap := rfl
@[simp] theorem State.drew_params (n : Nat) : (s.drew n).params = s.params := rfl
@[simp] theorem State.drew_devices (n : Nat) : (s.drew n).devices = s.devices := rfl
@[simp] theorem State.drew_inputs (n : Nat) : (s.drew n).inputs = s.inputs := rfl
@[simp] theorem State.drew_ioReplies (n : Nat) : (s.drew n).ioReplies = s.ioReplies := rfl
@[simp] theorem State.drew_memReplies (n : Nat) : (s.drew n).memReplies = s.memReplies := rfl
@[simp] theorem State.drew_cycleDma (n : Nat) : (s.drew n).cycleDma = s.cycleDma := rfl
@[simp] theorem State.drew_busLog (n : Nat) : (s.drew n).busLog = s.busLog := rfl
@[simp] theorem State.drew_tStates (n : Nat) : (s.drew n).tStates = s.tStates := rfl
@[simp] theorem State.drew_draws (n : Nat) : (s.drew n).draws = s.draws + n := rfl

/-! ### answerAck -/

@[simp] theorem State.answerAck_regs : (s.answerAck).regs = s.regs := rfl
@[simp] theorem State.answerAck_alt : (s.answerAck).alt = s.alt := rfl
@[simp] theorem State.answerAck_ix : (s.answerAck).ix = s.ix := rfl
@[simp] theorem State.answerAck_iy : (s.answerAck).iy = s.iy := rfl
@[simp] theorem State.answerAck_sp : (s.answerAck).sp = s.sp := rfl
@[simp] theorem State.answerAck_pc : (s.answerAck).pc = s.pc := rfl
@[simp] theorem State.answerAck_i : (s.answerAck).i = s.i := rfl
@[simp] theorem State.answerAck_r : (s.answerAck).r = s.r := rfl
@[simp] theorem State.answerAck_iff1 : (s.answerAck).iff1 = s.iff1 := rfl
@[simp] theorem State.answerAck_iff2 : (s.answerAck).iff2 = s.iff2 := rfl
@[simp] theorem State.answerAck_im : (s.answerAck).im = s.im := rfl
@[simp] theorem State.answerAck_nmiPending : (s.answerAck).nmiPending = s.nmiPending := rfl
@[simp] theorem State.answerAck_noSample : (s.answerAck).noSample = s.noSample := rfl
@[simp] theorem State.answerAck_halted : (s.answerAck).halted = s.halted := rfl
@[simp] theorem State.answerAck_busGranted : (s.answerAck).busGranted = s.busGranted := rfl
@[simp] theorem State.answerAck_mem : (s.answerAck).mem = s.mem := rfl
@[simp] theorem State.answerAck_memMap : (s.answerAck).memMap = s.memMap := rfl
@[simp] theorem State.answerAck_params : (s.answerAck).params = s.params := rfl
@[simp] theorem State.answerAck_inputs : (s.answerAck).inputs = s.inputs := rfl
@[simp] theorem State.answerAck_ioReplies : (s.answerAck).ioReplies = s.ioReplies := rfl
@[simp] theorem State.answerAck_memReplies : (s.answerAck).memReplies = s.memReplies := rfl
@[simp] theorem State.answerAck_cycleDma : (s.answerAck).cycleDma = s.cycleDma := rfl
@[simp] theorem State.answerAck_busLog : (s.answerAck).busLog = s.busLog := rfl
@[simp] theorem State.answerAck_draws : (s.answerAck).draws = s.draws := rfl
@[simp] theorem State.answerAck_tStates : (s.answerAck).tStates = s.tStates := rfl

/-! ### retiSeen -/

@[simp] theorem State.retiSeen_regs : (s.retiSeen).regs = s.regs := rfl
@[simp] theorem State.retiSeen_alt : (s.retiSeen).alt = s.alt := rfl
@[simp] theorem State.retiSeen_ix : (s.retiSeen).ix = s.ix := rfl
@[simp] theorem State.retiSeen_iy : (s.retiSeen).iy = s.iy := rfl
@[simp] theorem State.retiSeen_sp : (s.retiSeen).sp = s.sp := rfl
@[simp] theorem State.retiSeen_pc : (s.retiSeen).pc = s.pc := rfl
@[simp] theorem State.retiSeen_i : (s.retiSeen).i = s.i := rfl
@[simp] theorem State.retiSeen_r : (s.retiSeen).r = s.r := rfl
@[simp] theorem State.retiSeen_iff1 : (s.retiSeen).iff1 = s.iff1 := rfl
@[simp] theorem State.retiSeen_iff2 : (s.retiSeen).iff2 = s.iff2 := rfl
@[simp] theorem State.retiSeen_im : (s.retiSeen).im = s.im := rfl
@[simp] theorem State.retiSeen_nmiPending : (s.retiSeen).nmiPending = s.nmiPending := rfl
@[simp] theorem State.retiSeen_noSample : (s.retiSeen).noSample = s.noSample := rfl
@[simp] theorem State.retiSeen_halted : (s.retiSeen).halted = s.halted := rfl
@[simp] theorem State.retiSeen_busGranted : (s.retiSeen).busGranted = s.busGranted := rfl
@[simp] theorem State.retiSeen_mem : (s.retiSeen).mem = s.mem := rfl
@[simp] theorem State.retiSeen_memMap : (s.retiSeen).memMap = s.memMap := rfl
@[simp] theorem State.retiSeen_params : (s.retiSeen).params = s.params := rfl
@[simp] theorem State.retiSeen_inputs : (s.retiSeen).inputs = s.inputs := rfl
@[simp] theorem State.retiSeen_ioReplies : (s.retiSeen).ioReplies = s.ioReplies := rfl
@[simp] theorem State.retiSeen_memReplies : (s.retiSeen).memReplies = s.memReplies := rfl
@[simp] theorem State.retiSeen_cycleDma : (s.retiSeen).cycleDma = s.cycleDma := rfl
@[simp] theorem State.retiSeen_draws : (s.retiSeen).draws = s.draws := rfl
@[simp] theorem State.retiSeen_tStates : (s.retiSeen).tStates = s.tStates := rfl
@[simp] theorem State.retiSeen_busLog : (s.retiSeen).busLog = .reti :: s.busLog := rfl

/-! ### setReg -/

@[simp] theorem State.setReg_alt (x : Reg8) (v : Byte) : (s.setReg x v).alt = s.alt := rfl
@[simp] theorem State.setReg_ix (x : Reg8) (v : Byte) : (s.setReg x v).ix = s.ix := rfl
@[simp] theorem State.setReg_iy (x : Reg8) (v : Byte) : (s.setReg x v).iy = s.iy := rfl
@[simp] theorem State.setReg_sp (x : Reg8) (v : Byte) : (s.setReg x v).sp = s.sp := rfl
@[simp] theorem State.setReg_pc (x : Reg8) (v : Byte) : (s.setReg x v).pc = s.pc := rfl
@[simp] theorem State.setReg_i (x : Reg8) (v : Byte) : (s.setReg x v).i = s.i := rfl
@[simp] theorem State.setReg_r (x : Reg8) (v : Byte) : (s.setReg x v).r = s.r := rfl
@[simp] theorem State.setReg_iff1 (x : Reg8) (v : Byte) : (s.setReg x v).iff1 = s.iff1 := rfl
@[simp] theorem State.setReg_iff2 (x : Reg8) (v : Byte) : (s.setReg x v).iff2 = s.iff2 := rfl
@[simp] theorem State.setReg_im (x : Reg8) (v : Byte) : (s.setReg x v).im = s.im := rfl
@[simp] theorem State.setReg_nmiPending (x : Reg8) (v : Byte) : (s.setReg x v).nmiPending = s.nmiPending := rfl
@[simp] theorem State.setReg_noSample (x : Reg8) (v : Byte) : (s.setReg x v).noSample = s.noSample := rfl
@[simp] theorem State.setReg_halted (x : Reg8) (v : Byte) : (s.setReg x v).halted = s.halted := rfl
@[simp] theorem State.setReg_busGranted (x : Reg8) (v : Byte) : (s.setReg x v).busGranted = s.busGranted := rfl
@[simp] theorem State.setReg_mem (x : Reg8) (v : Byte) : (s.setReg x v).mem = s.mem := rfl
@[simp] theorem State.setReg_memMap (x : Reg8) (v : Byte) : (s.setReg x v).memMap = s.memMap := rfl
@[simp] theorem State.setReg_params (x : Reg8) (v : Byte) : (s.setReg x v).params = s.params := rfl
@[simp] theorem State.setReg_devices (x : Reg8) (v : Byte) : (s.setReg x v).devices = s.devices := rfl
@[simp] theorem State.setReg_inputs (x : Reg8) (v : Byte) : (s.setReg x v).inputs = s.inputs := rfl
@[simp] theorem State.setReg_ioReplies (x : Reg8) (v : Byte) : (s.setReg x v).ioReplies = s.ioReplies := rfl
@[simp] theorem State.setReg_memReplies (x : Reg8) (v : Byte) : (s.setReg x v).memReplies = s.memReplies := rfl
@[simp] theorem State.setReg_cycleDma (x : Reg8) (v : Byte) : (s.setReg x v).cycleDma = s.cycleDma := rfl
@[simp] theorem State.setReg_busLog (x : Reg8) (v : Byte) : (s.setReg x v).busLog = s.busLog := rfl
@[simp] theorem State.setReg_draws (x : Reg8) (v : Byte) : (s.setReg x v).draws = s.draws := rfl
@[simp] theorem State.setReg_tStates (x : Reg8) (v : Byte) : (s.setReg x v).tStates = s.tStates := rfl
@[simp] theorem State.setReg_regs (x : Reg8) (v : Byte) : (s.setReg x v).regs = s.regs.set x v := rfl

/-! ### setA -/

@[simp] theorem State.setA_alt (v : Byte) : (s.setA v).alt = s.alt := rfl
@[simp] theorem State.setA_ix (v : Byte) : (s.setA v).ix = s.ix := rfl
@[simp] theorem State.setA_iy (v : Byte) : (s.setA v).iy = s.iy := rfl
@[simp] theorem State.setA_sp (v : Byte) : (s.setA v).sp = s.sp := rfl
@[simp] theorem State.setA_pc (v : Byte) : (s.setA v).pc = s.pc := rfl
@[simp] theorem State.setA_i (v : Byte) : (s.setA v).i = s.i := rfl
@[simp] theorem State.setA_r (v : Byte) : (s.setA v).r = s.r := rfl
@[simp] theorem State.setA_iff1 (v : Byte) : (s.setA v).iff1 = s.iff1 := rfl
@[simp] theorem State.setA_iff2 (v : Byte) : (s.setA v).iff2 = s.iff2 := rfl
@[simp] theorem State.setA_im (v : Byte) : (s.setA v).im = s.im := rfl
@[simp] theorem State.setA_nmiPending (v : Byte) : (s.setA v).nmiPending = s.nmiPending := rfl
@[simp] theorem State.setA_noSample (v : Byte) : (s.setA v).noSample = s.noSample := rfl
@[simp] theorem State.setA_halted (v : Byte) : (s.setA v).halted = s.halted := rfl
@[simp] theorem State.setA_busGranted (v : Byte) : (s.setA v).busGranted = s.busGranted := rfl
@[simp] theorem State.setA_mem (v : Byte) : (s.setA v).mem = s.mem := rfl
@[simp] theorem State.setA_memMap (v : Byte) : (s.setA v).memMap = s.memMap := rfl
@[simp] theorem State.setA_params (v : Byte) : (s.setA v).params = s.params := rfl
@[simp] theorem State.setA_devices (v : Byte) : (s.setA v).devices = s.devices := rfl
@[simp] theorem State.setA_inputs (v : Byte) : (s.setA v).inputs = s.inputs := rfl
@[simp] theorem State.setA_ioReplies (v : Byte) : (s.setA v).ioReplies = s.ioReplies := rfl
@[simp] theorem State.setA_memReplies (v : Byte) : (s.setA v).memReplies = s.memReplies := rfl
@[simp] theorem State.setA_cycleDma (v : Byte) : (s.setA v).cycleDma = s.cycleDma := rfl
@[simp] theorem State.setA_busLog (v : Byte) : (s.setA v).busLog = s.busLog := rfl
@[simp] theorem State.setA_draws (v : Byte) : (s.setA v).draws = s.draws := rfl
@[simp] theorem State.setA_tStates (v : Byte) : (s.setA v).tStates = s.tStates := rfl
@[simp] theorem State.setA_regs (v : Byte) : (s.setA v).regs = { s.regs with a := v } := rfl

/-! ### setFlags -/

@[simp] theorem State.setFlags_alt (f : Flags) : (s.setFlags f).alt = s.alt := rfl
@[simp] theorem State.setFlags_ix (f : Flags) : (s.setFlags f).ix = s.ix := rfl
@[simp] theorem State.setFlags_iy (f : Flags) : (s.setFlags f).iy = s.iy := rfl
@[simp] theorem State.setFlags_sp (f : Flags) : (s.setFlags f).sp = s.sp := rfl
@[simp] theorem State.setFlags_pc (f : Flags) : (s.setFlags f).pc = s.pc := rfl
@[simp] theorem State.setFlags_i (f : Flags) : (s.setFlags f).i = s.i := rfl
@[simp] theorem State.setFlags_r (f : Flags) : (s.setFlags f).r = s.r := rfl
@[simp] theorem State.setFlags_iff1 (f : Flags) : (s.setFlags f).iff1 = s.iff1 := rfl
@[simp] theorem State.setFlags_iff2 (f : Flags) : (s.setFlags f).iff2 = s.iff2 := rfl
@[simp] theorem State.setFlags_im (f : Flags) : (s.setFlags f).im = s.im := rfl
@[simp] theorem State.setFlags_nmiPending (f : Flags) : (s.setFlags f).nmiPending = s.nmiPending := rfl
@[simp] theorem State.setFlags_noSample (f : Flags) : (s.setFlags f).noSample = s.noSample := rfl
@[simp] theorem State.setFlags_halted (f : Flags) : (s.setFlags f).halted = s.halted := rfl
@[simp] theorem State.setFlags_busGranted (f : Flags) : (s.setFlags f).busGranted = s.busGranted := rfl
@[simp] theorem State.setFlags_mem (f : Flags) : (s.setFlags f).mem = s.mem := rfl
@[simp] theorem State.setFlags_memMap (f : Flags) : (s.setFlags f).memMap = s.memMap := rfl
@[simp] theorem State.setFlags_params (f : Flags) : (s.setFlags f).params = s.params := rfl
@[simp] theorem State.setFlags_devices (f : Flags) : (s.setFlags f).devices = s.devices := rfl
@[simp] theorem State.setFlags_inputs (f : Flags) : (s.setFlags f).inputs = s.inputs := rfl
@[simp] theorem State.setFlags_ioReplies (f : Flags) : (s.setFlags f).ioReplies = s.ioReplies := rfl
@[simp] theorem State.setFlags_memReplies (f : Flags) : (s.setFlags f).memReplies = s.memReplies := rfl
@[simp] theorem State.setFlags_cycleDma (f : Flags) : (s.setFlags f).cycleDma = s.cycleDma := rfl
@[simp] theorem State.setFlags_busLog (f : Flags) : (s.setFlags f).busLog = s.busLog := rfl
@[simp] theorem State.setFlags_draws (f : Flags) : (s.setFlags f).draws = s.draws := rfl
@[simp] theorem State.setFlags_tStates (f : Flags) : (s.setFlags f).tStates = s.tStates := rfl
@[simp] theorem State.setFlags_regs (f : Flags) : (s.setFlags f).regs = { s.regs with f := f } := rfl

/-! ### setAF -/

@[simp] theorem State.setAF_alt (p : Byte × Flags) : (s.setAF p).alt = s.alt := rfl
@[simp] theorem State.setAF_ix (p : Byte × Flags) : (s.setAF p).ix = s.ix := rfl
@[simp] theorem State.setAF_iy (p : Byte × Flags) : (s.setAF p).iy = s.iy := rfl
@[simp] theorem State.setAF_sp (p : Byte × Flags) : (s.setAF p).sp = s.sp := rfl
@[simp] theorem State.setAF_pc (p : Byte × Flags) : (s.setAF p).pc = s.pc := rfl
@[simp] theorem State.setAF_i (p : Byte × Flags) : (s.setAF p).i = s.i := rfl
@[simp] theorem State.setAF_r (p : Byte × Flags) : (s.setAF p).r = s.r := rfl
@[simp] theorem State.setAF_iff1 (p : Byte × Flags) : (s.setAF p).iff1 = s.iff1 := rfl
@[simp] theorem State.setAF_iff2 (p : Byte × Flags) : (s.setAF p).iff2 = s.iff2 := rfl
@[simp] theorem State.setAF_im (p : Byte × Flags) : (s.setAF p).im = s.im := rfl
@[simp] theorem State.setAF_nmiPending (p : Byte × Flags) : (s.setAF p).nmiPending = s.nmiPending := rfl
@[simp] theorem State.setAF_noSample (p : Byte × Flags) : (s.setAF p).noSample = s.noSample := rfl
@[simp] theorem State.setAF_halted (p : Byte × Flags) : (s.setAF p).halted = s.halted := rfl
@[simp] theorem State.setAF_busGranted (p : Byte × Flags) : (s.setAF p).busGranted = s.busGranted := rfl
@[simp] theorem State.setAF_mem (p : Byte × Flags) : (s.setAF p).mem = s.mem := rfl
@[simp] theorem State.setAF_memMap (p : Byte × Flags) : (s.setAF p).memMap = s.memMap := rfl
@[simp] theorem State.setAF_params (p : Byte × Flags) : (s.setAF p).params = s.params := rfl
@[simp] theorem State.setAF_devices (p : Byte × Flags) : (s.setAF p).devices = s.devices := rfl
@[simp] theorem State.setAF_inputs (p : Byte × Flags) : (s.setAF p).inputs = s.inputs := rfl
@[simp] theorem State.setAF_ioReplies (p : Byte × Flags) : (s.setAF p).ioReplies = s.ioReplies := rfl
@[simp] theorem State.setAF_memReplies (p : Byte × Flags) : (s.setAF p).memReplies = s.memReplies := rfl
@[simp] theorem State.setAF_cycleDma (p : Byte × Flags) : (s.setAF p).cycleDma = s.cycleDma := rfl
@[simp] theorem State.setAF_busLog (p : Byte × Flags) : (s.setAF p).busLog = s.busLog := rfl
@[simp] theorem State.setAF_draws (p : Byte × Flags) : (s.setAF p).draws = s.draws := rfl
@[simp] theorem State.setAF_tStates (p : Byte × Flags) : (s.setAF p).tStates = s.tStates := rfl
@[simp] theorem State.setAF_regs (p : Byte × Flags) : (s.setAF p).regs = { s.regs with a := p.1, f := p.2 } := rfl

/-! ### setRegF -/

@[simp] theorem State.setRegF_alt (x : Reg8) (p : Byte × Flags) : (s.setRegF x p).alt = s.alt := rfl
@[simp] theorem State.setRegF_ix (x : Reg8) (p : Byte × Flags) : (s.setRegF x p).ix = s.ix := rfl
@[simp] theorem State.setRegF_iy (x : Reg8) (p : Byte × Flags) : (s.setRegF x p).iy = s.iy := rfl
@[simp] theorem State.setRegF_sp (x : Reg8) (p : Byte × Flags) : (s.setRegF x p).sp = s.sp := rfl
@[simp] theorem State.setRegF_pc (x : Reg8) (p : Byte × Flags) : (s.setRegF x p).pc = s.pc := rfl
@[simp] theorem State.setRegF_i (x : Reg8) (p : Byte × Flags) : (s.setRegF x p).i = s.i := rfl
@[simp] theorem State.setRegF_r (x : Reg8) (p : Byte × Flags) : (s.setRegF x p).r = s.r := rfl
@[simp] theorem State.setRegF_iff1 (x : Reg8) (p : Byte × Flags) : (s.setRegF x p).iff1 = s.iff1 := rfl
@[simp] theorem State.setRegF_iff2 (x : Reg8) (p : Byte × Flags) : (s.setRegF x p).iff2 = s.iff2 := rfl
@[simp] theorem State.setRegF_im (x : Reg8) (p : Byte × Flags) : (s.setRegF x p).im = s.im := rfl
@[simp] theorem State.setRegF_nmiPending (x : Reg8) (p : Byte × Flags) :
    (s.setRegF x p).nmiPending = s.nmiPending := rfl
@[simp] theorem State.setRegF_noSample (x : Reg8) (p : Byte × Flags) : (s.setRegF x p).noSample = s.noSample := rfl
@[simp] theorem State.setRegF_halted (x : Reg8) (p : Byte × Flags) : (s.setRegF x p).halted = s.halted := rfl
@[simp] theorem State.setRegF_busGranted (x : Reg8) (p : Byte × Flags) :
    (s.setRegF x p).busGranted = s.busGranted := rfl
@[simp] theorem State.setRegF_mem (x : Reg8) (p : Byte × Flags) : (s.setRegF x p).mem = s.mem := rfl
@[simp] theorem State.setRegF_memMap (x : Reg8) (p : Byte × Flags) : (s.setRegF x p).memMap = s.memMap := rfl
@[simp] theorem State.setRegF_params (x : Reg8) (p : Byte × Flags) : (s.setRegF x p).params = s.params := rfl
@[simp] theorem State.setRegF_devices (x : Reg8) (p : Byte × Flags) : (s.setRegF x p).devices = s.devices := rfl
@[simp] theorem State.setRegF_inputs (x : Reg8) (p : Byte × Flags) : (s.setRegF x p).inputs = s.inputs := rfl
@[simp] theorem State.setRegF_ioReplies (x : Reg8) (p : Byte × Flags) : (s.setRegF x p).ioReplies = s.ioReplies := rfl
@[simp] theorem State.setRegF_memReplies (x : Reg8) (p : Byte × Flags) :
    (s.setRegF x p).memReplies = s.memReplies := rfl
@[simp] theorem State.setRegF_cycleDma (x : Reg8) (p : Byte × Flags) : (s.setRegF x p).cycleDma = s.cycleDma := rfl
@[simp] theorem State.setRegF_busLog (x : Reg8) (p : Byte × Flags) : (s.setRegF x p).busLog = s.busLog := rfl
@[simp] theorem State.setRegF_draws (x : Reg8) (p : Byte × Flags) : (s.setRegF x p).draws = s.draws := rfl
@[simp] theorem State.setRegF_tStates (x : Reg8) (p : Byte × Flags) : (s.setRegF x p).tStates = s.tStates := rfl
@[simp] theorem State.setRegF_regs (x : Reg8) (p : Byte × Flags) :
    (s.setRegF x p).regs = { s.regs.set x p.1 with f := p.2 } := rfl

/-! ### setBc -/

@[simp] theorem State.setBc_alt (v : Word) : (s.setBc v).alt = s.alt := rfl
@[simp] theorem State.setBc_ix (v : Word) : (s.setBc v).ix = s.ix := rfl
@[simp] theorem State.setBc_iy (v : Word) : (s.setBc v).iy = s.iy := rfl
@[simp] theorem State.setBc_sp (v : Word) : (s.setBc v).sp = s.sp := rfl
@[simp] theorem State.setBc_pc (v : Word) : (s.setBc v).pc = s.pc := rfl
@[simp] theorem State.setBc_i (v : Word) : (s.setBc v).i = s.i := rfl
@[simp] theorem State.setBc_r (v : Word) : (s.setBc v).r = s.r := rfl
@[simp] theorem State.setBc_iff1 (v : Word) : (s.setBc v).iff1 = s.iff1 := rfl
@[simp] theorem State.setBc_iff2 (v : Word) : (s.setBc v).iff2 = s.iff2 := rfl
@[simp] theorem State.setBc_im (v : Word) : (s.setBc v).im = s.im := rfl
@[simp] theorem State.setBc_nmiPending (v : Word) : (s.setBc v).nmiPending = s.nmiPending := rfl
@[simp] theorem State.setBc_noSample (v : Word) : (s.setBc v).noSample = s.noSample := rfl
@[simp] theorem State.setBc_halted (v : Word) : (s.setBc v).halted = s.halted := rfl
@[simp] theorem State.setBc_busGranted (v : Word) : (s.setBc v).busGranted = s.busGranted := rfl
@[simp] theorem State.setBc_mem (v : Word) : (s.setBc v).mem = s.mem := rfl
@[simp] theorem State.setBc_memMap (v : Word) : (s.setBc v).memMap = s.memMap := rfl
@[simp] theorem State.setBc_params (v : Word) : (s.setBc v).params = s.params := rfl
@[simp] theorem State.setBc_devices (v : Word) : (s.setBc v).devices = s.devices := rfl
@[simp] theorem State.setBc_inputs (v : Word) : (s.setBc v).inputs = s.inputs := rfl
@[simp] theorem State.setBc_ioReplies (v : Word) : (s.setBc v).ioReplies = s.ioReplies := rfl
@[simp] theorem State.setBc_memReplies (v : Word) : (s.setBc v).memReplies = s.memReplies := rfl
@[simp] theorem State.setBc_cycleDma (v : Word) : (s.setBc v).cycleDma = s.cycleDma := rfl
@[simp] theorem State.setBc_busLog (v : Word) : (s.setBc v).busLog = s.busLog := rfl
@[simp] theorem State.setBc_draws (v : Word) : (s.setBc v).draws = s.draws := rfl
@[simp] theorem State.setBc_tStates (v : Word) : (s.setBc v).tStates = s.tStates := rfl
@[simp] theorem State.setBc_regs (v : Word) :
    (s.setBc v).regs = { s.regs with b := highByte v, c := lowByte v } := rfl

/-! ### setDe -/

@[simp] theorem State.setDe_alt (v : Word) : (s.setDe v).alt = s.alt := rfl
@[simp] theorem State.setDe_ix (v : Word) : (s.setDe v).ix = s.ix := rfl
@[simp] theorem State.setDe_iy (v : Word) : (s.setDe v).iy = s.iy := rfl
@[simp] theorem State.setDe_sp (v : Word) : (s.setDe v).sp = s.sp := rfl
@[simp] theorem State.setDe_pc (v : Word) : (s.setDe v).pc = s.pc := rfl
@[simp] theorem State.setDe_i (v : Word) : (s.setDe v).i = s.i := rfl
@[simp] theorem State.setDe_r (v : Word) : (s.setDe v).r = s.r := rfl
@[simp] theorem State.setDe_iff1 (v : Word) : (s.setDe v).iff1 = s.iff1 := rfl
@[simp] theorem State.setDe_iff2 (v : Word) : (s.setDe v).iff2 = s.iff2 := rfl
@[simp] theorem State.setDe_im (v : Word) : (s.setDe v).im = s.im := rfl
@[simp] theorem State.setDe_nmiPending (v : Word) : (s.setDe v).nmiPending = s.nmiPending := rfl
@[simp] theorem State.setDe_noSample (v : Word) : (s.setDe v).noSample = s.noSample := rfl
@[simp] theorem State.setDe_halted (v : Word) : (s.setDe v).halted = s.halted := rfl
@[simp] theorem State.setDe_busGranted (v : Word) : (s.setDe v).busGranted = s.busGranted := rfl
@[simp] theorem State.setDe_mem (v : Word) : (s.setDe v).mem = s.mem := rfl
@[simp] theorem State.setDe_memMap (v : Word) : (s.setDe v).memMap = s.memMap := rfl
@[simp] theorem State.setDe_params (v : Word) : (s.setDe v).params = s.params := rfl
@[simp] theorem State.setDe_devices (v : Word) : (s.setDe v).devices = s.devices := rfl
@[simp] theorem State.setDe_inputs (v : Word) : (s.setDe v).inputs = s.inputs := rfl
@[simp] theorem State.setDe_ioReplies (v : Word) : (s.setDe v).ioReplies = s.ioReplies := rfl
@[simp] theorem State.setDe_memReplies (v : Word) : (s.setDe v).memReplies = s.memReplies := rfl
@[simp] theorem State.setDe_cycleDma (v : Word) : (s.setDe v).cycleDma = s.cycleDma := rfl
@[simp] theorem State.setDe_busLog (v : Word) : (s.setDe v).busLog = s.busLog := rfl
@[simp] theorem State.setDe_draws (v : Word) : (s.setDe v).draws = s.draws := rfl
@[simp] theorem State.setDe_tStates (v : Word) : (s.setDe v).tStates = s.tStates := rfl
@[simp] theorem State.setDe_regs (v : Word) :
    (s.setDe v).regs = { s.regs with d := highByte v, e := lowByte v } := rfl

/-! ### setHl -/

@[simp] theorem State.setHl_alt (v : Word) : (s.setHl v).alt = s.alt := rfl
@[simp] theorem State.setHl_ix (v : Word) : (s.setHl v).ix = s.ix := rfl
@[simp] theorem State.setHl_iy (v : Word) : (s.setHl v).iy = s.iy := rfl
@[simp] theorem State.setHl_sp (v : Word) : (s.setHl v).sp = s.sp := rfl
@[simp] theorem State.setHl_pc (v : Word) : (s.setHl v).pc = s.pc := rfl
@[simp] theorem State.setHl_i (v : Word) : (s.setHl v).i = s.i := rfl
@[simp] theorem State.setHl_r (v : Word) : (s.setHl v).r = s.r := rfl
@[simp] theorem State.setHl_iff1 (v : Word) : (s.setHl v).iff1 = s.iff1 := rfl
@[simp] theorem State.setHl_iff2 (v : Word) : (s.setHl v).iff2 = s.iff2 := rfl
@[simp] theorem State.setHl_im (v : Word) : (s.setHl v).im = s.im := rfl
@[simp] theorem State.setHl_nmiPending (v : Word) : (s.setHl v).nmiPending = s.nmiPending := rfl
@[simp] theorem State.setHl_noSample (v : Word) : (s.setHl v).noSample = s.noSample := rfl
@[simp] theorem State.setHl_halted (v : Word) : (s.setHl v).halted = s.halted := rfl
@[simp] theorem State.setHl_busGranted (v : Word) : (s.setHl v).busGranted = s.busGranted := rfl
@[simp] theorem State.setHl_mem (v : Word) : (s.setHl v).mem = s.mem := rfl
@[simp] theorem State.setHl_memMap (v : Word) : (s.setHl v).memMap = s.memMap := rfl
@[simp] theorem State.setHl_params (v : Word) : (s.setHl v).params = s.params := rfl
@[simp] theorem State.setHl_devices (v : Word) : (s.setHl v).devices = s.devices := rfl
@[simp] theorem State.setHl_inputs (v : Word) : (s.setHl v).inputs = s.inputs := rfl
@[simp] theorem State.setHl_ioReplies (v : Word) : (s.setHl v).ioReplies = s.ioReplies := rfl
@[simp] theorem State.setHl_memReplies (v : Word) : (s.setHl v).memReplies = s.memReplies := rfl
@[simp] theorem State.setHl_cycleDma (v : Word) : (s.setHl v).cycleDma = s.cycleDma := rfl
@[simp] theorem State.setHl_busLog (v : Word) : (s.setHl v).busLog = s.busLog := rfl
@[simp] theorem State.setHl_draws (v : Word) : (s.setHl v).draws = s.draws := rfl
@[simp] theorem State.setHl_tStates (v : Word) : (s.setHl v).tStates = s.tStates := rfl
@[simp] theorem State.setHl_regs (v : Word) :
    (s.setHl v).regs = { s.regs with h := highByte v, l := lowByte v } := rfl

/-! ### jumpTo -/

@[simp] theorem State.jumpTo_regs (v : Word) : (s.jumpTo v).regs = s.regs := rfl
@[simp] theorem State.jumpTo_alt (v : Word) : (s.jumpTo v).alt = s.alt := rfl
@[simp] theorem State.jumpTo_ix (v : Word) : (s.jumpTo v).ix = s.ix := rfl
@[simp] theorem State.jumpTo_iy (v : Word) : (s.jumpTo v).iy = s.iy := rfl
@[simp] theorem State.jumpTo_sp (v : Word) : (s.jumpTo v).sp = s.sp := rfl
@[simp] theorem State.jumpTo_i (v : Word) : (s.jumpTo v).i = s.i := rfl
@[simp] theorem State.jumpTo_r (v : Word) : (s.jumpTo v).r = s.r := rfl
@[simp] theorem State.jumpTo_iff1 (v : Word) : (s.jumpTo v).iff1 = s.iff1 := rfl
@[simp] theorem State.jumpTo_iff2 (v : Word) : (s.jumpTo v).iff2 = s.iff2 := rfl
@[simp] theorem State.jumpTo_im (v : Word) : (s.jumpTo v).im = s.im := rfl
@[simp] theorem State.jumpTo_nmiPending (v : Word) : (s.jumpTo v).nmiPending = s.nmiPending := rfl
@[simp] theorem State.jumpTo_noSample (v : Word) : (s.jumpTo v).noSample = s.noSample := rfl
@[simp] theorem State.jumpTo_halted (v : Word) : (s.jumpTo v).halted = s.halted := rfl
@[simp] theorem State.jumpTo_busGranted (v : Word) : (s.jumpTo v).busGranted = s.busGranted := rfl
@[simp] theorem State.jumpTo_mem (v : Word) : (s.jumpTo v).mem = s.mem := rfl
@[simp] theorem State.jumpTo_memMap (v : Word) : (s.jumpTo v).memMap = s.memMap := rfl
@[simp] theorem State.jumpTo_params (v : Word) : (s.jumpTo v).params = s.params := rfl
@[simp] theorem State.jumpTo_devices (v : Word) : (s.jumpTo v).devices = s.devices := rfl
@[simp] theorem State.jumpTo_inputs (v : Word) : (s.jumpTo v).inputs = s.inputs := rfl
@[simp] theorem State.jumpTo_ioReplies (v : Word) : (s.jumpTo v).ioReplies = s.ioReplies := rfl
@[simp] theorem State.jumpTo_memReplies (v : Word) : (s.jumpTo v).memReplies = s.memReplies := rfl
@[simp] theorem State.jumpTo_cycleDma (v : Word) : (s.jumpTo v).cycleDma = s.cycleDma := rfl
@[simp] theorem State.jumpTo_busLog (v : Word) : (s.jumpTo v).busLog = s.busLog := rfl
@[simp] theorem State.jumpTo_draws (v : Word) : (s.jumpTo v).draws = s.draws := rfl
@[simp] theorem State.jumpTo_tStates (v : Word) : (s.jumpTo v).tStates = s.tStates := rfl
@[simp] theorem State.jumpTo_pc (v : Word) : (s.jumpTo v).pc = v := rfl

/-! ### jumpRelative -/

@[simp] theorem State.jumpRelative_regs (e : Byte) : (s.jumpRelative e).regs = s.regs := rfl
@[simp] theorem State.jumpRelative_alt (e : Byte) : (s.jumpRelative e).alt = s.alt := rfl
@[simp] theorem State.jumpRelative_ix (e : Byte) : (s.jumpRelative e).ix = s.ix := rfl
@[simp] theorem State.jumpRelative_iy (e : Byte) : (s.jumpRelative e).iy = s.iy := rfl
@[simp] theorem State.jumpRelative_sp (e : Byte) : (s.jumpRelative e).sp = s.sp := rfl
@[simp] theorem State.jumpRelative_i (e : Byte) : (s.jumpRelative e).i = s.i := rfl
@[simp] theorem State.jumpRelative_r (e : Byte) : (s.jumpRelative e).r = s.r := rfl
@[simp] theorem State.jumpRelative_iff1 (e : Byte) : (s.jumpRelative e).iff1 = s.iff1 := rfl
@[simp] theorem State.jumpRelative_iff2 (e : Byte) : (s.jumpRelative e).iff2 = s.iff2 := rfl
@[simp] theorem State.jumpRelative_im (e : Byte) : (s.jumpRelative e).im = s.im := rfl
@[simp] theorem State.jumpRelative_nmiPending (e : Byte) : (s.jumpRelative e).nmiPending = s.nmiPending := rfl
@[simp] theorem State.jumpRelative_noSample (e : Byte) : (s.jumpRelative e).noSample = s.noSample := rfl
@[simp] theorem State.jumpRelative_halted (e : Byte) : (s.jumpRelative e).halted = s.halted := rfl
@[simp] theorem State.jumpRelative_busGranted (e : Byte) : (s.jumpRelative e).busGranted = s.busGranted := rfl
@[simp] theorem State.jumpRelative_mem (e : Byte) : (s.jumpRelative e).mem = s.mem := rfl
@[simp] theorem State.jumpRelative_memMap (e : Byte) : (s.jumpRelative e).memMap = s.memMap := rfl
@[simp] theorem State.jumpRelative_params (e : Byte) : (s.jumpRelative e).params = s.params := rfl
@[simp] theorem State.jumpRelative_devices (e : Byte) : (s.jumpRelative e).devices = s.devices := rfl
@[simp] theorem State.jumpRelative_inputs (e : Byte) : (s.jumpRelative e).inputs = s.inputs := rfl
@[simp] theorem State.jumpRelative_ioReplies (e : Byte) : (s.jumpRelative e).ioReplies = s.ioReplies := rfl
@[simp] theorem State.jumpRelative_memReplies (e : Byte) : (s.jumpRelative e).memReplies = s.memReplies := rfl
@[simp] theorem State.jumpRelative_cycleDma (e : Byte) : (s.jumpRelative e).cycleDma = s.cycleDma := rfl
@[simp] theorem State.jumpRelative_busLog (e : Byte) : (s.jumpRelative e).busLog = s.busLog := rfl
@[simp] theorem State.jumpRelative_draws (e : Byte) : (s.jumpRelative e).draws = s.draws := rfl
@[simp] theorem State.jumpRelative_tStates (e : Byte) : (s.jumpRelative e).tStates = s.tStates := rfl
@[simp] theorem State.jumpRelative_pc (e : Byte) : (s.jumpRelative e).pc = s.pc + e.signExtend 16 := rfl

/-! ### repeatInstr -/

@[simp] theorem State.repeatInstr_regs : (s.repeatInstr).regs = s.regs := rfl
@[simp] theorem State.repeatInstr_alt : (s.repeatInstr).alt = s.alt := rfl
@[simp] theorem State.repeatInstr_ix : (s.repeatInstr).ix = s.ix := rfl
@[simp] theorem State.repeatInstr_iy : (s.repeatInstr).iy = s.iy := rfl
@[simp] theorem State.repeatInstr_sp : (s.repeatInstr).sp = s.sp := rfl
@[simp] theorem State.repeatInstr_i : (s.repeatInstr).i = s.i := rfl
@[simp] theorem State.repeatInstr_r : (s.repeatInstr).r = s.r := rfl
@[simp] theorem State.repeatInstr_iff1 : (s.repeatInstr).iff1 = s.iff1 := rfl
@[simp] theorem State.repeatInstr_iff2 : (s.repeatInstr).iff2 = s.iff2 := rfl
@[simp] theorem State.repeatInstr_im : (s.repeatInstr).im = s.im := rfl
@[simp] theorem State.repeatInstr_nmiPending : (s.repeatInstr).nmiPending = s.nmiPending := rfl
@[simp] theorem State.repeatInstr_noSample : (s.repeatInstr).noSample = s.noSample := rfl
@[simp] theorem State.repeatInstr_halted : (s.repeatInstr).halted = s.halted := rfl
@[simp] theorem State.repeatInstr_busGranted : (s.repeatInstr).busGranted = s.busGranted := rfl
@[simp] theorem State.repeatInstr_mem : (s.repeatInstr).mem = s.mem := rfl
@[simp] theorem State.repeatInstr_memMap : (s.repeatInstr).memMap = s.memMap := rfl
@[simp] theorem State.repeatInstr_params : (s.repeatInstr).params = s.params := rfl
@[simp] theorem State.repeatInstr_devices : (s.repeatInstr).devices = s.devices := rfl
@[simp] theorem State.repeatInstr_inputs : (s.repeatInstr).inputs = s.inputs := rfl
@[simp] theorem State.repeatInstr_ioReplies : (s.repeatInstr).ioReplies = s.ioReplies := rfl
@[simp] theorem State.repeatInstr_memReplies : (s.repeatInstr).memReplies = s.memReplies := rfl
@[simp] theorem State.repeatInstr_cycleDma : (s.repeatInstr).cycleDma = s.cycleDma := rfl
@[simp] theorem State.repeatInstr_busLog : (s.repeatInstr).busLog = s.busLog := rfl
@[simp] theorem State.repeatInstr_draws : (s.repeatInstr).draws = s.draws := rfl
@[simp] theorem State.repeatInstr_tStates : (s.repeatInstr).tStates = s.tStates := rfl
@[simp] theorem State.repeatInstr_pc : (s.repeatInstr).pc = s.pc - 2#16 := rfl

/-! ### applyEvent -/

@[simp] theorem State.applyEvent_regs (e : DeviceEvent) : (s.applyEvent e).regs = s.regs := rfl
@[simp] theorem State.applyEvent_alt (e : DeviceEvent) : (s.applyEvent e).alt = s.alt := rfl
@[simp] theorem State.applyEvent_ix (e : DeviceEvent) : (s.applyEvent e).ix = s.ix := rfl
@[simp] theorem State.applyEvent_iy (e : DeviceEvent) : (s.applyEvent e).iy = s.iy := rfl
@[simp] theorem State.applyEvent_sp (e : DeviceEvent) : (s.applyEvent e).sp = s.sp := rfl
@[simp] theorem State.applyEvent_pc (e : DeviceEvent) : (s.applyEvent e).pc = s.pc := rfl
@[simp] theorem State.applyEvent_i (e : DeviceEvent) : (s.applyEvent e).i = s.i := rfl
@[simp] theorem State.applyEvent_r (e : DeviceEvent) : (s.applyEvent e).r = s.r := rfl
@[simp] theorem State.applyEvent_iff1 (e : DeviceEvent) : (s.applyEvent e).iff1 = s.iff1 := rfl
@[simp] theorem State.applyEvent_iff2 (e : DeviceEvent) : (s.applyEvent e).iff2 = s.iff2 := rfl
@[simp] theorem State.applyEvent_im (e : DeviceEvent) : (s.applyEvent e).im = s.im := rfl
@[simp] theorem State.applyEvent_nmiPending (e : DeviceEvent) : (s.applyEvent e).nmiPending = s.nmiPending := rfl
@[simp] theorem State.applyEvent_noSample (e : DeviceEvent) : (s.applyEvent e).noSample = s.noSample := rfl
@[simp] theorem State.applyEvent_halted (e : DeviceEvent) : (s.applyEvent e).halted = s.halted := rfl
@[simp] theorem State.applyEvent_busGranted (e : DeviceEvent) : (s.applyEvent e).busGranted = s.busGranted := rfl
@[simp] theorem State.applyEvent_mem (e : DeviceEvent) : (s.applyEvent e).mem = s.mem := rfl
@[simp] theorem State.applyEvent_memMap (e : DeviceEvent) : (s.applyEvent e).memMap = s.memMap := rfl
@[simp] theorem State.applyEvent_params (e : DeviceEvent) : (s.applyEvent e).params = s.params := rfl
@[simp] theorem State.applyEvent_inputs (e : DeviceEvent) : (s.applyEvent e).inputs = s.inputs := rfl
@[simp] theorem State.applyEvent_ioReplies (e : DeviceEvent) : (s.applyEvent e).ioReplies = s.ioReplies := rfl
@[simp] theorem State.applyEvent_memReplies (e : DeviceEvent) : (s.applyEvent e).memReplies = s.memReplies := rfl
@[simp] theorem State.applyEvent_cycleDma (e : DeviceEvent) : (s.applyEvent e).cycleDma = s.cycleDma := rfl
@[simp] theorem State.applyEvent_busLog (e : DeviceEvent) : (s.applyEvent e).busLog = s.busLog := rfl
@[simp] theorem State.applyEvent_tStates (e : DeviceEvent) : (s.applyEvent e).tStates = s.tStates := rfl
@[simp] theorem State.applyEvent_draws (e : DeviceEvent) : (s.applyEvent e).draws = s.draws + e.draws := rfl
@[simp] theorem State.applyEvent_devices (e : DeviceEvent) :
    (s.applyEvent e).devices = s.devices.modify e.chip (Device.event s.draws e) := rfl

/-! ### hardReset -/

@[simp] theorem State.hardReset_mem : (s.hardReset).mem = s.mem := rfl
@[simp] theorem State.hardReset_memMap : (s.hardReset).memMap = s.memMap := rfl
@[simp] theorem State.hardReset_params : (s.hardReset).params = s.params := rfl
@[simp] theorem State.hardReset_inputs : (s.hardReset).inputs = s.inputs := rfl
@[simp] theorem State.hardReset_ioReplies : (s.hardReset).ioReplies = s.ioReplies := rfl
@[simp] theorem State.hardReset_memReplies : (s.hardReset).memReplies = s.memReplies := rfl
@[simp] theorem State.hardReset_cycleDma : (s.hardReset).cycleDma = s.cycleDma := rfl
@[simp] theorem State.hardReset_busLog : (s.hardReset).busLog = s.busLog := rfl
@[simp] theorem State.hardReset_tStates : (s.hardReset).tStates = s.tStates := rfl
@[simp] theorem State.hardReset_pc : (s.hardReset).pc = 0#16 := rfl
@[simp] theorem State.hardReset_i : (s.hardReset).i = 0#8 := rfl
@[simp] theorem State.hardReset_r : (s.hardReset).r = 0#8 := rfl
@[simp] theorem State.hardReset_iff1 : (s.hardReset).iff1 = false := rfl
@[simp] theorem State.hardReset_iff2 : (s.hardReset).iff2 = false := rfl
@[simp] theorem State.hardReset_im : (s.hardReset).im = .mode0 := rfl
@[simp] theorem State.hardReset_halted : (s.hardReset).halted = false := rfl
@[simp] theorem State.hardReset_nmiPending : (s.hardReset).nmiPending = false := rfl
@[simp] theorem State.hardReset_noSample : (s.hardReset).noSample = false := rfl
@[simp] theorem State.hardReset_busGranted : (s.hardReset).busGranted = false := rfl

/-! ### answerMem -/

@[simp] theorem State.answerMem_regs (a : Word) :
    (s.answerMem a).regs = s.regs := by unfold State.answerMem; split <;> rfl
@[simp] theorem State.answerMem_alt (a : Word) :
    (s.answerMem a).alt = s.alt := by unfold State.answerMem; split <;> rfl
@[simp] theorem State.answerMem_ix (a : Word) : (s.answerMem a).ix = s.ix := by unfold State.answerMem; split <;> rfl
@[simp] theorem State.answerMem_iy (a : Word) : (s.answerMem a).iy = s.iy := by unfold State.answerMem; split <;> rfl
@[simp] theorem State.answerMem_sp (a : Word) : (s.answerMem a).sp = s.sp := by unfold State.answerMem; split <;> rfl
@[simp] theorem State.answerMem_pc (a : Word) : (s.answerMem a).pc = s.pc := by unfold State.answerMem; split <;> rfl
@[simp] theorem State.answerMem_i (a : Word) : (s.answerMem a).i = s.i := by unfold State.answerMem; split <;> rfl
@[simp] theorem State.answerMem_r (a : Word) : (s.answerMem a).r = s.r := by unfold State.answerMem; split <;> rfl
@[simp] theorem State.answerMem_iff1 (a : Word) :
    (s.answerMem a).iff1 = s.iff1 := by unfold State.answerMem; split <;> rfl
@[simp] theorem State.answerMem_iff2 (a : Word) :
    (s.answerMem a).iff2 = s.iff2 := by unfold State.answerMem; split <;> rfl
@[simp] theorem State.answerMem_im (a : Word) : (s.answerMem a).im = s.im := by unfold State.answerMem; split <;> rfl
@[simp] theorem State.answerMem_nmiPending (a : Word) :
    (s.answerMem a).nmiPending = s.nmiPending := by unfold State.answerMem; split <;> rfl
@[simp] theorem State.answerMem_noSample (a : Word) :
    (s.answerMem a).noSample = s.noSample := by unfold State.answerMem; split <;> rfl
@[simp] theorem State.answerMem_halted (a : Word) :
    (s.answerMem a).halted = s.halted := by unfold State.answerMem; split <;> rfl
@[simp] theorem State.answerMem_busGranted (a : Word) :
    (s.answerMem a).busGranted = s.busGranted := by unfold State.answerMem; split <;> rfl
@[simp] theorem State.answerMem_mem (a : Word) :
    (s.answerMem a).mem = s.mem := by unfold State.answerMem; split <;> rfl
@[simp] theorem State.answerMem_memMap (a : Word) :
    (s.answerMem a).memMap = s.memMap := by unfold State.answerMem; split <;> rfl
@[simp] theorem State.answerMem_params (a : Word) :
    (s.answerMem a).params = s.params := by unfold State.answerMem; split <;> rfl
@[simp] theorem State.answerMem_devices (a : Word) :
    (s.answerMem a).devices = s.devices := by unfold State.answerMem; split <;> rfl
@[simp] theorem State.answerMem_inputs (a : Word) :
    (s.answerMem a).inputs = s.inputs := by unfold State.answerMem; split <;> rfl
@[simp] theorem State.answerMem_ioReplies (a : Word) :
    (s.answerMem a).ioReplies = s.ioReplies := by unfold State.answerMem; split <;> rfl
@[simp] theorem State.answerMem_cycleDma (a : Word) :
    (s.answerMem a).cycleDma = s.cycleDma := by unfold State.answerMem; split <;> rfl
@[simp] theorem State.answerMem_busLog (a : Word) :
    (s.answerMem a).busLog = s.busLog := by unfold State.answerMem; split <;> rfl
@[simp] theorem State.answerMem_tStates (a : Word) :
    (s.answerMem a).tStates = s.tStates := by unfold State.answerMem; split <;> rfl

/-! ### dmaAccess -/

@[simp] theorem State.dmaAccess_regs (x : DmaAccess) :
    (s.dmaAccess x).regs = s.regs := by cases x <;> simp [State.dmaAccess]
@[simp] theorem State.dmaAccess_alt (x : DmaAccess) :
    (s.dmaAccess x).alt = s.alt := by cases x <;> simp [State.dmaAccess]
@[simp] theorem State.dmaAccess_ix (x : DmaAccess) :
    (s.dmaAccess x).ix = s.ix := by cases x <;> simp [State.dmaAccess]
@[simp] theorem State.dmaAccess_iy (x : DmaAccess) :
    (s.dmaAccess x).iy = s.iy := by cases x <;> simp [State.dmaAccess]
@[simp] theorem State.dmaAccess_sp (x : DmaAccess) :
    (s.dmaAccess x).sp = s.sp := by cases x <;> simp [State.dmaAccess]
@[simp] theorem State.dmaAccess_pc (x : DmaAccess) :
    (s.dmaAccess x).pc = s.pc := by cases x <;> simp [State.dmaAccess]
@[simp] theorem State.dmaAccess_i (x : DmaAccess) : (s.dmaAccess x).i = s.i := by cases x <;> simp [State.dmaAccess]
@[simp] theorem State.dmaAccess_r (x : DmaAccess) : (s.dmaAccess x).r = s.r := by cases x <;> simp [State.dmaAccess]
@[simp] theorem State.dmaAccess_iff1 (x : DmaAccess) :
    (s.dmaAccess x).iff1 = s.iff1 := by cases x <;> simp [State.dmaAccess]
@[simp] theorem State.dmaAccess_iff2 (x : DmaAccess) :
    (s.dmaAccess x).iff2 = s.iff2 := by cases x <;> simp [State.dmaAccess]
@[simp] theorem State.dmaAccess_im (x : DmaAccess) :
    (s.dmaAccess x).im = s.im := by cases x <;> simp [State.dmaAccess]
@[simp] theorem State.dmaAccess_nmiPending (x : DmaAccess) :
    (s.dmaAccess x).nmiPending = s.nmiPending := by cases x <;> simp [State.dmaAccess]
@[simp] theorem State.dmaAccess_noSample (x : DmaAccess) :
    (s.dmaAccess x).noSample = s.noSample := by cases x <;> simp [State.dmaAccess]
@[simp] theorem State.dmaAccess_halted (x : DmaAccess) :
    (s.dmaAccess x).halted = s.halted := by cases x <;> simp [State.dmaAccess]
@[simp] theorem State.dmaAccess_busGranted (x : DmaAccess) :
    (s.dmaAccess x).busGranted = s.busGranted := by cases x <;> simp [State.dmaAccess]
@[simp] theorem State.dmaAccess_memMap (x : DmaAccess) :
    (s.dmaAccess x).memMap = s.memMap := by cases x <;> simp [State.dmaAccess]
@[simp] theorem State.dmaAccess_params (x : DmaAccess) :
    (s.dmaAccess x).params = s.params := by cases x <;> simp [State.dmaAccess]
@[simp] theorem State.dmaAccess_inputs (x : DmaAccess) :
    (s.dmaAccess x).inputs = s.inputs := by cases x <;> simp [State.dmaAccess]
@[simp] theorem State.dmaAccess_tStates (x : DmaAccess) :
    (s.dmaAccess x).tStates = s.tStates := by cases x <;> simp [State.dmaAccess]
@[simp] theorem State.dmaAccess_cycleDma (x : DmaAccess) :
    (s.dmaAccess x).cycleDma = s.cycleDma := by cases x <;> simp [State.dmaAccess]

/-! ### dma -/

/-- What every access of another bus master leaves alone, the whole grant leaves alone. -/
theorem State.dma_keeps {α : Type} {f : State → α} (hf : ∀ s x, f (s.dmaAccess x) = f s) (l : List DmaAccess)
    (s : State) : f (s.dma l) = f s := by
  unfold State.dma
  induction l generalizing s with
  | nil => rfl
  | cons x t ih => exact (ih _).trans (hf s x)

@[simp] theorem State.dma_regs (l : List DmaAccess) :
    (s.dma l).regs = s.regs := State.dma_keeps (f := State.regs) (fun s x => s.dmaAccess_regs x) l s
@[simp] theorem State.dma_alt (l : List DmaAccess) :
    (s.dma l).alt = s.alt := State.dma_keeps (f := State.alt) (fun s x => s.dmaAccess_alt x) l s
@[simp] theorem State.dma_ix (l : List DmaAccess) :
    (s.dma l).ix = s.ix := State.dma_keeps (f := State.ix) (fun s x => s.dmaAccess_ix x) l s
@[simp] theorem State.dma_iy (l : List DmaAccess) :
    (s.dma l).iy = s.iy := State.dma_keeps (f := State.iy) (fun s x => s.dmaAccess_iy x) l s
@[simp] theorem State.dma_sp (l : List DmaAccess) :
    (s.dma l).sp = s.sp := State.dma_keeps (f := State.sp) (fun s x => s.dmaAccess_sp x) l s
@[simp] theorem State.dma_pc (l : List DmaAccess) :
    (s.dma l).pc = s.pc := State.dma_keeps (f := State.pc) (fun s x => s.dmaAccess_pc x) l s
@[simp] theorem State.dma_i (l : List DmaAccess) :
    (s.dma l).i = s.i := State.dma_keeps (f := State.i) (fun s x => s.dmaAccess_i x) l s
@[simp] theorem State.dma_r (l : List DmaAccess) :
    (s.dma l).r = s.r := State.dma_keeps (f := State.r) (fun s x => s.dmaAccess_r x) l s
@[simp] theorem State.dma_iff1 (l : List DmaAccess) :
    (s.dma l).iff1 = s.iff1 := State.dma_keeps (f := State.iff1) (fun s x => s.dmaAccess_iff1 x) l s
@[simp] theorem State.dma_iff2 (l : List DmaAccess) :
    (s.dma l).iff2 = s.iff2 := State.dma_keeps (f := State.iff2) (fun s x => s.dmaAccess_iff2 x) l s
@[simp] theorem State.dma_im (l : List DmaAccess) :
    (s.dma l).im = s.im := State.dma_keeps (f := State.im) (fun s x => s.dmaAccess_im x) l s
@[simp] theorem State.dma_nmiPending (l : List DmaAccess) :
    (s.dma l).nmiPending = s.nmiPending := State.dma_keeps (f := State.nmiPending) (fun s x => s.dmaAccess_nmiPending x) l s
@[simp] theorem State.dma_noSample (l : List DmaAccess) :
    (s.dma l).noSample = s.noSample := State.dma_keeps (f := State.noSample) (fun s x => s.dmaAccess_noSample x) l s
@[simp] theorem State.dma_halted (l : List DmaAccess) :
    (s.dma l).halted = s.halted := State.dma_keeps (f := State.halted) (fun s x => s.dmaAccess_halted x) l s
@[simp] theorem State.dma_busGranted (l : List DmaAccess) :
    (s.dma l).busGranted = s.busGranted := State.dma_keeps (f := State.busGranted) (fun s x => s.dmaAccess_busGranted x) l s
@[simp] theorem State.dma_memMap (l : List DmaAccess) :
    (s.dma l).memMap = s.memMap := State.dma_keeps (f := State.memMap) (fun s x => s.dmaAccess_memMap x) l s
@[simp] theorem State.dma_params (l : List DmaAccess) :
    (s.dma l).params = s.params := State.dma_keeps (f := State.params) (fun s x => s.dmaAccess_params x) l s
@[simp] theorem State.dma_inputs (l : List DmaAccess) :
    (s.dma l).inputs = s.inputs := State.dma_keeps (f := State.inputs) (fun s x => s.dmaAccess_inputs x) l s
@[simp] theorem State.dma_tStates (l : List DmaAccess) :
    (s.dma l).tStates = s.tStates := State.dma_keeps (f := State.tStates) (fun s x => s.dmaAccess_tStates x) l s
@[simp] theorem State.dma_cycleDma (l : List DmaAccess) :
    (s.dma l).cycleDma = s.cycleDma := State.dma_keeps (f := State.cycleDma) (fun s x => s.dmaAccess_cycleDma x) l s

/-! ### endCycle -/

@[simp] theorem State.endCycle_regs : (s.endCycle).regs = s.regs := by unfold State.endCycle; split <;> simp
@[simp] theorem State.endCycle_alt : (s.endCycle).alt = s.alt := by unfold State.endCycle; split <;> simp
@[simp] theorem State.endCycle_ix : (s.endCycle).ix = s.ix := by unfold State.endCycle; split <;> simp
@[simp] theorem State.endCycle_iy : (s.endCycle).iy = s.iy := by unfold State.endCycle; split <;> simp
@[simp] theorem State.endCycle_sp : (s.endCycle).sp = s.sp := by unfold State.endCycle; split <;> simp
@[simp] theorem State.endCycle_pc : (s.endCycle).pc = s.pc := by unfold State.endCycle; split <;> simp
@[simp] theorem State.endCycle_i : (s.endCycle).i = s.i := by unfold State.endCycle; split <;> simp
@[simp] theorem State.endCycle_r : (s.endCycle).r = s.r := by unfold State.endCycle; split <;> simp
@[simp] theorem State.endCycle_iff1 : (s.endCycle).iff1 = s.iff1 := by unfold State.endCycle; split <;> simp
@[simp] theorem State.endCycle_iff2 : (s.endCycle).iff2 = s.iff2 := by unfold State.endCycle; split <;> simp
@[simp] theorem State.endCycle_im : (s.endCycle).im = s.im := by unfold State.endCycle; split <;> simp
@[simp] theorem State.endCycle_nmiPending :
    (s.endCycle).nmiPending = s.nmiPending := by unfold State.endCycle; split <;> simp
@[simp] theorem State.endCycle_noSample :
    (s.endCycle).noSample = s.noSample := by unfold State.endCycle; split <;> simp
@[simp] theorem State.endCycle_halted : (s.endCycle).halted = s.halted := by unfold State.endCycle; split <;> simp
@[simp] theorem State.endCycle_busGranted :
    (s.endCycle).busGranted = s.busGranted := by unfold State.endCycle; split <;> simp
@[simp] theorem State.endCycle_memMap : (s.endCycle).memMap = s.memMap := by unfold State.endCycle; split <;> simp
@[simp] theorem State.endCycle_params : (s.endCycle).params = s.params := by unfold State.endCycle; split <;> simp
@[simp] theorem State.endCycle_inputs : (s.endCycle).inputs = s.inputs := by unfold State.endCycle; split <;> simp
@[simp] theorem State.endCycle_tStates : (s.endCycle).tStates = s.tStates := by unfold State.endCycle; split <;> simp

/-! ### afterRead8 -/

@[simp] theorem State.afterRead8_regs (a : Word) : (s.afterRead8 a).regs = s.regs := by simp [State.afterRead8]
@[simp] theorem State.afterRead8_alt (a : Word) : (s.afterRead8 a).alt = s.alt := by simp [State.afterRead8]
@[simp] theorem State.afterRead8_ix (a : Word) : (s.afterRead8 a).ix = s.ix := by simp [State.afterRead8]
@[simp] theorem State.afterRead8_iy (a : Word) : (s.afterRead8 a).iy = s.iy := by simp [State.afterRead8]
@[simp] theorem State.afterRead8_sp (a : Word) : (s.afterRead8 a).sp = s.sp := by simp [State.afterRead8]
@[simp] theorem State.afterRead8_pc (a : Word) : (s.afterRead8 a).pc = s.pc := by simp [State.afterRead8]
@[simp] theorem State.afterRead8_i (a : Word) : (s.afterRead8 a).i = s.i := by simp [State.afterRead8]
@[simp] theorem State.afterRead8_r (a : Word) : (s.afterRead8 a).r = s.r := by simp [State.afterRead8]
@[simp] theorem State.afterRead8_iff1 (a : Word) : (s.afterRead8 a).iff1 = s.iff1 := by simp [State.afterRead8]
@[simp] theorem State.afterRead8_iff2 (a : Word) : (s.afterRead8 a).iff2 = s.iff2 := by simp [State.afterRead8]
@[simp] theorem State.afterRead8_im (a : Word) : (s.afterRead8 a).im = s.im := by simp [State.afterRead8]
@[simp] theorem State.afterRead8_nmiPending (a : Word) :
    (s.afterRead8 a).nmiPending = s.nmiPending := by simp [State.afterRead8]
@[simp] theorem State.afterRead8_noSample (a : Word) :
    (s.afterRead8 a).noSample = s.noSample := by simp [State.afterRead8]
@[simp] theorem State.afterRead8_halted (a : Word) : (s.afterRead8 a).halted = s.halted := by simp [State.afterRead8]
@[simp] theorem State.afterRead8_busGranted (a : Word) :
    (s.afterRead8 a).busGranted = s.busGranted := by simp [State.afterRead8]
@[simp] theorem State.afterRead8_memMap (a : Word) : (s.afterRead8 a).memMap = s.memMap := by simp [State.afterRead8]
@[simp] theorem State.afterRead8_params (a : Word) : (s.afterRead8 a).params = s.params := by simp [State.afterRead8]
@[simp] theorem State.afterRead8_inputs (a : Word) : (s.afterRead8 a).inputs = s.inputs := by simp [State.afterRead8]
@[simp] theorem State.afterRead8_tStates (a : Word) :
    (s.afterRead8 a).tStates = s.tStates := by simp [State.afterRead8]

/-! ### write8 -/

@[simp] theorem State.write8_regs (a : Word) (v : Byte) : (s.write8 a v).regs = s.regs := by simp [State.write8]
@[simp] theorem State.write8_alt (a : Word) (v : Byte) : (s.write8 a v).alt = s.alt := by simp [State.write8]
@[simp] theorem State.write8_ix (a : Word) (v : Byte) : (s.write8 a v).ix = s.ix := by simp [State.write8]
@[simp] theorem State.write8_iy (a : Word) (v : Byte) : (s.write8 a v).iy = s.iy := by simp [State.write8]
@[simp] theorem State.write8_sp (a : Word) (v : Byte) : (s.write8 a v).sp = s.sp := by simp [State.write8]
@[simp] theorem State.write8_pc (a : Word) (v : Byte) : (s.write8 a v).pc = s.pc := by simp [State.write8]
@[simp] theorem State.write8_i (a : Word) (v : Byte) : (s.write8 a v).i = s.i := by simp [State.write8]
@[simp] theorem State.write8_r (a : Word) (v : Byte) : (s.write8 a v).r = s.r := by simp [State.write8]
@[simp] theorem State.write8_iff1 (a : Word) (v : Byte) : (s.write8 a v).iff1 = s.iff1 := by simp [State.write8]
@[simp] theorem State.write8_iff2 (a : Word) (v : Byte) : (s.write8 a v).iff2 = s.iff2 := by simp [State.write8]
@[simp] theorem State.write8_im (a : Word) (v : Byte) : (s.write8 a v).im = s.im := by simp [State.write8]
@[simp] theorem State.write8_nmiPending (a : Word) (v : Byte) :
    (s.write8 a v).nmiPending = s.nmiPending := by simp [State.write8]
@[simp] theorem State.write8_noSample (a : Word) (v : Byte) :
    (s.write8 a v).noSample = s.noSample := by simp [State.write8]
@[simp] theorem State.write8_halted (a : Word) (v : Byte) : (s.write8 a v).halted = s.halted := by simp [State.write8]
@[simp] theorem State.write8_busGranted (a : Word) (v : Byte) :
    (s.write8 a v).busGranted = s.busGranted := by simp [State.write8]
@[simp] theorem State.write8_memMap (a : Word) (v : Byte) : (s.write8 a v).memMap = s.memMap := by simp [State.write8]
@[simp] theorem State.write8_params (a : Word) (v : Byte) : (s.write8 a v).params = s.params := by simp [State.write8]
@[simp] theorem State.write8_inputs (a : Word) (v : Byte) : (s.write8 a v).inputs = s.inputs := by simp [State.write8]
@[simp] theorem State.write8_tStates (a : Word) (v : Byte) :
    (s.write8 a v).tStates = s.tStates := by simp [State.write8]

/-! ### afterRead16 -/

@[simp] theorem State.afterRead16_regs (a : Word) : (s.afterRead16 a).regs = s.regs := by simp [State.afterRead16]
@[simp] theorem State.afterRead16_alt (a : Word) : (s.afterRead16 a).alt = s.alt := by simp [State.afterRead16]
@[simp] theorem State.afterRead16_ix (a : Word) : (s.afterRead16 a).ix = s.ix := by simp [State.afterRead16]
@[simp] theorem State.afterRead16_iy (a : Word) : (s.afterRead16 a).iy = s.iy := by simp [State.afterRead16]
@[simp] theorem State.afterRead16_sp (a : Word) : (s.afterRead16 a).sp = s.sp := by simp [State.afterRead16]
@[simp] theorem State.afterRead16_pc (a : Word) : (s.afterRead16 a).pc = s.pc := by simp [State.afterRead16]
@[simp] theorem State.afterRead16_i (a : Word) : (s.afterRead16 a).i = s.i := by simp [State.afterRead16]
@[simp] theorem State.afterRead16_r (a : Word) : (s.afterRead16 a).r = s.r := by simp [State.afterRead16]
@[simp] theorem State.afterRead16_iff1 (a : Word) : (s.afterRead16 a).iff1 = s.iff1 := by simp [State.afterRead16]
@[simp] theorem State.afterRead16_iff2 (a : Word) : (s.afterRead16 a).iff2 = s.iff2 := by simp [State.afterRead16]
@[simp] theorem State.afterRead16_im (a : Word) : (s.afterRead16 a).im = s.im := by simp [State.afterRead16]
@[simp] theorem State.afterRead16_nmiPending (a : Word) :
    (s.afterRead16 a).nmiPending = s.nmiPending := by simp [State.afterRead16]
@[simp] theorem State.afterRead16_noSample (a : Word) :
    (s.afterRead16 a).noSample = s.noSample := by simp [State.afterRead16]
@[simp] theorem State.afterRead16_halted (a : Word) :
    (s.afterRead16 a).halted = s.halted := by simp [State.afterRead16]
@[simp] theorem State.afterRead16_busGranted (a : Word) :
    (s.afterRead16 a).busGranted = s.busGranted := by simp [State.afterRead16]
@[simp] theorem State.afterRead16_memMap (a : Word) :
    (s.afterRead16 a).memMap = s.memMap := by simp [State.afterRead16]
@[simp] theorem State.afterRead16_params (a : Word) :
    (s.afterRead16 a).params = s.params := by simp [State.afterRead16]
@[simp] theorem State.afterRead16_inputs (a : Word) :
    (s.afterRead16 a).inputs = s.inputs := by simp [State.afterRead16]
@[simp] theorem State.afterRead16_tStates (a : Word) :
    (s.afterRead16 a).tStates = s.tStates := by simp [State.afterRead16]

/-! ### write16 -/

@[simp] theorem State.write16_regs (a v : Word) : (s.write16 a v).regs = s.regs := by simp [State.write16]
@[simp] theorem State.write16_alt (a v : Word) : (s.write16 a v).alt = s.alt := by simp [State.write16]
@[simp] theorem State.write16_ix (a v : Word) : (s.write16 a v).ix = s.ix := by simp [State.write16]
@[simp] theorem State.write16_iy (a v : Word) : (s.write16 a v).iy = s.iy := by simp [State.write16]
@[simp] theorem State.write16_sp (a v : Word) : (s.write16 a v).sp = s.sp := by simp [State.write16]
@[simp] theorem State.write16_pc (a v : Word) : (s.write16 a v).pc = s.pc := by simp [State.write16]
@[simp] theorem State.write16_i (a v : Word) : (s.write16 a v).i = s.i := by simp [State.write16]
@[simp] theorem State.write16_r (a v : Word) : (s.write16 a v).r = s.r := by simp [State.write16]
@[simp] theorem State.write16_iff1 (a v : Word) : (s.write16 a v).iff1 = s.iff1 := by simp [State.write16]
@[simp] theorem State.write16_iff2 (a v : Word) : (s.write16 a v).iff2 = s.iff2 := by simp [State.write16]
@[simp] theorem State.write16_im (a v : Word) : (s.write16 a v).im = s.im := by simp [State.write16]
@[simp] theorem State.write16_nmiPending (a v : Word) :
    (s.write16 a v).nmiPending = s.nmiPending := by simp [State.write16]
@[simp] theorem State.write16_noSample (a v : Word) : (s.write16 a v).noSample = s.noSample := by simp [State.write16]
@[simp] theorem State.write16_halted (a v : Word) : (s.write16 a v).halted = s.halted := by simp [State.write16]
@[simp] theorem State.write16_busGranted (a v : Word) :
    (s.write16 a v).busGranted = s.busGranted := by simp [State.write16]
@[simp] theorem State.write16_memMap (a v : Word) : (s.write16 a v).memMap = s.memMap := by simp [State.write16]
@[simp] theorem State.write16_params (a v : Word) : (s.write16 a v).params = s.params := by simp [State.write16]
@[simp] theorem State.write16_inputs (a v : Word) : (s.write16 a v).inputs = s.inputs := by simp [State.write16]
@[simp] theorem State.write16_tStates (a v : Word) : (s.write16 a v).tStates = s.tStates := by simp [State.write16]

/-! ### push16 -/

@[simp] theorem State.push16_regs (v : Word) : (s.push16 v).regs = s.regs := by simp [State.push16]
@[simp] theorem State.push16_alt (v : Word) : (s.push16 v).alt = s.alt := by simp [State.push16]
@[simp] theorem State.push16_ix (v : Word) : (s.push16 v).ix = s.ix := by simp [State.push16]
@[simp] theorem State.push16_iy (v : Word) : (s.push16 v).iy = s.iy := by simp [State.push16]
@[simp] theorem State.push16_pc (v : Word) : (s.push16 v).pc = s.pc := by simp [State.push16]
@[simp] theorem State.push16_i (v : Word) : (s.push16 v).i = s.i := by simp [State.push16]
@[simp] theorem State.push16_r (v : Word) : (s.push16 v).r = s.r := by simp [State.push16]
@[simp] theorem State.push16_iff1 (v : Word) : (s.push16 v).iff1 = s.iff1 := by simp [State.push16]
@[simp] theorem State.push16_iff2 (v : Word) : (s.push16 v).iff2 = s.iff2 := by simp [State.push16]
@[simp] theorem State.push16_im (v : Word) : (s.push16 v).im = s.im := by simp [State.push16]
@[simp] theorem State.push16_nmiPending (v : Word) : (s.push16 v).nmiPending = s.nmiPending := by simp [State.push16]
@[simp] theorem State.push16_noSample (v : Word) : (s.push16 v).noSample = s.noSample := by simp [State.push16]
@[simp] theorem State.push16_halted (v : Word) : (s.push16 v).halted = s.halted := by simp [State.push16]
@[simp] theorem State.push16_busGranted (v : Word) : (s.push16 v).busGranted = s.busGranted := by simp [State.push16]
@[simp] theorem State.push16_memMap (v : Word) : (s.push16 v).memMap = s.memMap := by simp [State.push16]
@[simp] theorem State.push16_params (v : Word) : (s.push16 v).params = s.params := by simp [State.push16]
@[simp] theorem State.push16_inputs (v : Word) : (s.push16 v).inputs = s.inputs := by simp [State.push16]
@[simp] theorem State.push16_tStates (v : Word) : (s.push16 v).tStates = s.tStates := by simp [State.push16]
@[simp] theorem State.push16_sp (v : Word) : (s.push16 v).sp = s.sp - 2#16 := by simp [State.push16]

/-! ### drop16 -/

@[simp] theorem State.drop16_regs : (s.drop16).regs = s.regs := by simp [State.drop16]
@[simp] theorem State.drop16_alt : (s.drop16).alt = s.alt := by simp [State.drop16]
@[simp] theorem State.drop16_ix : (s.drop16).ix = s.ix := by simp [State.drop16]
@[simp] theorem State.drop16_iy : (s.drop16).iy = s.iy := by simp [State.drop16]
@[simp] theorem State.drop16_pc : (s.drop16).pc = s.pc := by simp [State.drop16]
@[simp] theorem State.drop16_i : (s.drop16).i = s.i := by simp [State.drop16]
@[simp] theorem State.drop16_r : (s.drop16).r = s.r := by simp [State.drop16]
@[simp] theorem State.drop16_iff1 : (s.drop16).iff1 = s.iff1 := by simp [State.drop16]
@[simp] theorem State.drop16_iff2 : (s.drop16).iff2 = s.iff2 := by simp [State.drop16]
@[simp] theorem State.drop16_im : (s.drop16).im = s.im := by simp [State.drop16]
@[simp] theorem State.drop16_nmiPending : (s.drop16).nmiPending = s.nmiPending := by simp [State.drop16]
@[simp] theorem State.drop16_noSample : (s.drop16).noSample = s.noSample := by simp [State.drop16]
@[simp] theorem State.drop16_halted : (s.drop16).halted = s.halted := by simp [State.drop16]
@[simp] theorem State.drop16_busGranted : (s.drop16).busGranted = s.busGranted := by simp [State.drop16]
@[simp] theorem State.drop16_memMap : (s.drop16).memMap = s.memMap := by simp [State.drop16]
@[simp] theorem State.drop16_params : (s.drop16).params = s.params := by simp [State.drop16]
@[simp] theorem State.drop16_inputs : (s.drop16).inputs = s.inputs := by simp [State.drop16]
@[simp] theorem State.drop16_tStates : (s.drop16).tStates = s.tStates := by simp [State.drop16]
@[simp] theorem State.drop16_sp : (s.drop16).sp = s.sp + 2#16 := by simp [State.drop16]

/-! ### replaceTop -/

@[simp] theorem State.replaceTop_regs (v : Word) : (s.replaceTop v).regs = s.regs := by simp [State.replaceTop]
@[simp] theorem State.replaceTop_alt (v : Word) : (s.replaceTop v).alt = s.alt := by simp [State.replaceTop]
@[simp] theorem State.replaceTop_ix (v : Word) : (s.replaceTop v).ix = s.ix := by simp [State.replaceTop]
@[simp] theorem State.replaceTop_iy (v : Word) : (s.replaceTop v).iy = s.iy := by simp [State.replaceTop]
@[simp] theorem State.replaceTop_sp (v : Word) : (s.replaceTop v).sp = s.sp := by simp [State.replaceTop]
@[simp] theorem State.replaceTop_pc (v : Word) : (s.replaceTop v).pc = s.pc := by simp [State.replaceTop]
@[simp] theorem State.replaceTop_i (v : Word) : (s.replaceTop v).i = s.i := by simp [State.replaceTop]
@[simp] theorem State.replaceTop_r (v : Word) : (s.replaceTop v).r = s.r := by simp [State.replaceTop]
@[simp] theorem State.replaceTop_iff1 (v : Word) : (s.replaceTop v).iff1 = s.iff1 := by simp [State.replaceTop]
@[simp] theorem State.replaceTop_iff2 (v : Word) : (s.replaceTop v).iff2 = s.iff2 := by simp [State.replaceTop]
@[simp] theorem State.replaceTop_im (v : Word) : (s.replaceTop v).im = s.im := by simp [State.replaceTop]
@[simp] theorem State.replaceTop_nmiPending (v : Word) :
    (s.replaceTop v).nmiPending = s.nmiPending := by simp [State.replaceTop]
@[simp] theorem State.replaceTop_noSample (v : Word) :
    (s.replaceTop v).noSample = s.noSample := by simp [State.replaceTop]
@[simp] theorem State.replaceTop_halted (v : Word) : (s.replaceTop v).halted = s.halted := by simp [State.replaceTop]
@[simp] theorem State.replaceTop_busGranted (v : Word) :
    (s.replaceTop v).busGranted = s.busGranted := by simp [State.replaceTop]
@[simp] theorem State.replaceTop_memMap (v : Word) : (s.replaceTop v).memMap = s.memMap := by simp [State.replaceTop]
@[simp] theorem State.replaceTop_params (v : Word) : (s.replaceTop v).params = s.params := by simp [State.replaceTop]
@[simp] theorem State.replaceTop_inputs (v : Word) : (s.replaceTop v).inputs = s.inputs := by simp [State.replaceTop]
@[simp] theorem State.replaceTop_tStates (v : Word) :
    (s.replaceTop v).tStates = s.tStates := by simp [State.replaceTop]

/-! ### afterFetch -/

@[simp] theorem State.afterFetch_regs : (s.afterFetch).regs = s.regs := by simp [State.afterFetch]
@[simp] theorem State.afterFetch_alt : (s.afterFetch).alt = s.alt := by simp [State.afterFetch]
@[simp] theorem State.afterFetch_ix : (s.afterFetch).ix = s.ix := by simp [State.afterFetch]
@[simp] theorem State.afterFetch_iy : (s.afterFetch).iy = s.iy := by simp [State.afterFetch]
@[simp] theorem State.afterFetch_sp : (s.afterFetch).sp = s.sp := by simp [State.afterFetch]
@[simp] theorem State.afterFetch_pc : (s.afterFetch).pc = s.pc := by simp [State.afterFetch]
@[simp] theorem State.afterFetch_i : (s.afterFetch).i = s.i := by simp [State.afterFetch]
@[simp] theorem State.afterFetch_iff1 : (s.afterFetch).iff1 = s.iff1 := by simp [State.afterFetch]
@[simp] theorem State.afterFetch_iff2 : (s.afterFetch).iff2 = s.iff2 := by simp [State.afterFetch]
@[simp] theorem State.afterFetch_im : (s.afterFetch).im = s.im := by simp [State.afterFetch]
@[simp] theorem State.afterFetch_nmiPending : (s.afterFetch).nmiPending = s.nmiPending := by simp [State.afterFetch]
@[simp] theorem State.afterFetch_noSample : (s.afterFetch).noSample = s.noSample := by simp [State.afterFetch]
@[simp] theorem State.afterFetch_halted : (s.afterFetch).halted = s.halted := by simp [State.afterFetch]
@[simp] theorem State.afterFetch_busGranted : (s.afterFetch).busGranted = s.busGranted := by simp [State.afterFetch]
@[simp] theorem State.afterFetch_memMap : (s.afterFetch).memMap = s.memMap := by simp [State.afterFetch]
@[simp] theorem State.afterFetch_params : (s.afterFetch).params = s.params := by simp [State.afterFetch]
@[simp] theorem State.afterFetch_inputs : (s.afterFetch).inputs = s.inputs := by simp [State.afterFetch]
@[simp] theorem State.afterFetch_tStates : (s.afterFetch).tStates = s.tStates := by simp [State.afterFetch]
@[simp] theorem State.afterFetch_r : (s.afterFetch).r = refreshed 1 s.r := by simp [State.afterFetch]

/-! ### afterIoRead -/

@[simp] theorem State.afterIoRead_regs (port : Word) :
    (s.afterIoRead port).regs = s.regs := by simp [State.afterIoRead]
@[simp] theorem State.afterIoRead_alt (port : Word) : (s.afterIoRead port).alt = s.alt := by simp [State.afterIoRead]
@[simp] theorem State.afterIoRead_ix (port : Word) : (s.afterIoRead port).ix = s.ix := by simp [State.afterIoRead]
@[simp] theorem State.afterIoRead_iy (port : Word) : (s.afterIoRead port).iy = s.iy := by simp [State.afterIoRead]
@[simp] theorem State.afterIoRead_sp (port : Word) : (s.afterIoRead port).sp = s.sp := by simp [State.afterIoRead]
@[simp] theorem State.afterIoRead_pc (port : Word) : (s.afterIoRead port).pc = s.pc := by simp [State.afterIoRead]
@[simp] theorem State.afterIoRead_i (port : Word) : (s.afterIoRead port).i = s.i := by simp [State.afterIoRead]
@[simp] theorem State.afterIoRead_r (port : Word) : (s.afterIoRead port).r = s.r := by simp [State.afterIoRead]
@[simp] theorem State.afterIoRead_iff1 (port : Word) :
    (s.afterIoRead port).iff1 = s.iff1 := by simp [State.afterIoRead]
@[simp] theorem State.afterIoRead_iff2 (port : Word) :
    (s.afterIoRead port).iff2 = s.iff2 := by simp [State.afterIoRead]
@[simp] theorem State.afterIoRead_im (port : Word) : (s.afterIoRead port).im = s.im := by simp [State.afterIoRead]
@[simp] theorem State.afterIoRead_nmiPending (port : Word) :
    (s.afterIoRead port).nmiPending = s.nmiPending := by simp [State.afterIoRead]
@[simp] theorem State.afterIoRead_noSample (port : Word) :
    (s.afterIoRead port).noSample = s.noSample := by simp [State.afterIoRead]
@[simp] theorem State.afterIoRead_halted (port : Word) :
    (s.afterIoRead port).halted = s.halted := by simp [State.afterIoRead]
@[simp] theorem State.afterIoRead_busGranted (port : Word) :
    (s.afterIoRead port).busGranted = s.busGranted := by simp [State.afterIoRead]
@[simp] theorem State.afterIoRead_memMap (port : Word) :
    (s.afterIoRead port).memMap = s.memMap := by simp [State.afterIoRead]
@[simp] theorem State.afterIoRead_params (port : Word) :
    (s.afterIoRead port).params = s.params := by simp [State.afterIoRead]
@[simp] theorem State.afterIoRead_inputs (port : Word) :
    (s.afterIoRead port).inputs = s.inputs := by simp [State.afterIoRead]
@[simp] theorem State.afterIoRead_tStates (port : Word) :
    (s.afterIoRead port).tStates = s.tStates := by simp [State.afterIoRead]

/-! ### ioWrite -/

@[simp] theorem State.ioWrite_regs (port : Word) (v : Byte) :
    (s.ioWrite port v).regs = s.regs := by simp [State.ioWrite]
@[simp] theorem State.ioWrite_alt (port : Word) (v : Byte) : (s.ioWrite port v).alt = s.alt := by simp [State.ioWrite]
@[simp] theorem State.ioWrite_ix (port : Word) (v : Byte) : (s.ioWrite port v).ix = s.ix := by simp [State.ioWrite]
@[simp] theorem State.ioWrite_iy (port : Word) (v : Byte) : (s.ioWrite port v).iy = s.iy := by simp [State.ioWrite]
@[simp] theorem State.ioWrite_sp (port : Word) (v : Byte) : (s.ioWrite port v).sp = s.sp := by simp [State.ioWrite]
@[simp] theorem State.ioWrite_pc (port : Word) (v : Byte) : (s.ioWrite port v).pc = s.pc := by simp [State.ioWrite]
@[simp] theorem State.ioWrite_i (port : Word) (v : Byte) : (s.ioWrite port v).i = s.i := by simp [State.ioWrite]
@[simp] theorem State.ioWrite_r (port : Word) (v : Byte) : (s.ioWrite port v).r = s.r := by simp [State.ioWrite]
@[simp] theorem State.ioWrite_iff1 (port : Word) (v : Byte) :
    (s.ioWrite port v).iff1 = s.iff1 := by simp [State.ioWrite]
@[simp] theorem State.ioWrite_iff2 (port : Word) (v : Byte) :
    (s.ioWrite port v).iff2 = s.iff2 := by simp [State.ioWrite]
@[simp] theorem State.ioWrite_im (port : Word) (v : Byte) : (s.ioWrite port v).im = s.im := by simp [State.ioWrite]
@[simp] theorem State.ioWrite_nmiPending (port : Word) (v : Byte) :
    (s.ioWrite port v).nmiPending = s.nmiPending := by simp [State.ioWrite]
@[simp] theorem State.ioWrite_noSample (port : Word) (v : Byte) :
    (s.ioWrite port v).noSample = s.noSample := by simp [State.ioWrite]
@[simp] theorem State.ioWrite_halted (port : Word) (v : Byte) :
    (s.ioWrite port v).halted = s.halted := by simp [State.ioWrite]
@[simp] theorem State.ioWrite_busGranted (port : Word) (v : Byte) :
    (s.ioWrite port v).busGranted = s.busGranted := by simp [State.ioWrite]
@[simp] theorem State.ioWrite_memMap (port : Word) (v : Byte) :
    (s.ioWrite port v).memMap = s.memMap := by simp [State.ioWrite]
@[simp] theorem State.ioWrite_params (port : Word) (v : Byte) :
    (s.ioWrite port v).params = s.params := by simp [State.ioWrite]
@[simp] theorem State.ioWrite_inputs (port : Word) (v : Byte) :
    (s.ioWrite port v).inputs = s.inputs := by simp [State.ioWrite]
@[simp] theorem State.ioWrite_tStates (port : Word) (v : Byte) :
    (s.ioWrite port v).tStates = s.tStates := by simp [State.ioWrite]

/-! ### afterIntAck -/

@[simp] theorem State.afterIntAck_regs (b : Byte) : (s.afterIntAck b).regs = s.regs := by simp [State.afterIntAck]
@[simp] theorem State.afterIntAck_alt (b : Byte) : (s.afterIntAck b).alt = s.alt := by simp [State.afterIntAck]
@[simp] theorem State.afterIntAck_ix (b : Byte) : (s.afterIntAck b).ix = s.ix := by simp [State.afterIntAck]
@[simp] theorem State.afterIntAck_iy (b : Byte) : (s.afterIntAck b).iy = s.iy := by simp [State.afterIntAck]
@[simp] theorem State.afterIntAck_sp (b : Byte) : (s.afterIntAck b).sp = s.sp := by simp [State.afterIntAck]
@[simp] theorem State.afterIntAck_pc (b : Byte) : (s.afterIntAck b).pc = s.pc := by simp [State.afterIntAck]
@[simp] theorem State.afterIntAck_i (b : Byte) : (s.afterIntAck b).i = s.i := by simp [State.afterIntAck]
@[simp] theorem State.afterIntAck_iff1 (b : Byte) : (s.afterIntAck b).iff1 = s.iff1 := by simp [State.afterIntAck]
@[simp] theorem State.afterIntAck_iff2 (b : Byte) : (s.afterIntAck b).iff2 = s.iff2 := by simp [State.afterIntAck]
@[simp] theorem State.afterIntAck_im (b : Byte) : (s.afterIntAck b).im = s.im := by simp [State.afterIntAck]
@[simp] theorem State.afterIntAck_nmiPending (b : Byte) :
    (s.afterIntAck b).nmiPending = s.nmiPending := by simp [State.afterIntAck]
@[simp] theorem State.afterIntAck_noSample (b : Byte) :
    (s.afterIntAck b).noSample = s.noSample := by simp [State.afterIntAck]
@[simp] theorem State.afterIntAck_halted (b : Byte) :
    (s.afterIntAck b).halted = s.halted := by simp [State.afterIntAck]
@[simp] theorem State.afterIntAck_busGranted (b : Byte) :
    (s.afterIntAck b).busGranted = s.busGranted := by simp [State.afterIntAck]
@[simp] theorem State.afterIntAck_memMap (b : Byte) :
    (s.afterIntAck b).memMap = s.memMap := by simp [State.afterIntAck]
@[simp] theorem State.afterIntAck_params (b : Byte) :
    (s.afterIntAck b).params = s.params := by simp [State.afterIntAck]
@[simp] theorem State.afterIntAck_inputs (b : Byte) :
    (s.afterIntAck b).inputs = s.inputs := by simp [State.afterIntAck]
@[simp] theorem State.afterIntAck_tStates (b : Byte) :
    (s.afterIntAck b).tStates = s.tStates := by simp [State.afterIntAck]
@[simp] theorem State.afterIntAck_r (b : Byte) : (s.afterIntAck b).r = refreshed 1 s.r := by simp [State.afterIntAck]

/-! ### writeF -/

@[simp] theorem State.writeF_alt (a : Word) (p : Byte × Flags) : (s.writeF a p).alt = s.alt := by simp [State.writeF]
@[simp] theorem State.writeF_ix (a : Word) (p : Byte × Flags) : (s.writeF a p).ix = s.ix := by simp [State.writeF]
@[simp] theorem State.writeF_iy (a : Word) (p : Byte × Flags) : (s.writeF a p).iy = s.iy := by simp [State.writeF]
@[simp] theorem State.writeF_sp (a : Word) (p : Byte × Flags) : (s.writeF a p).sp = s.sp := by simp [State.writeF]
@[simp] theorem State.writeF_pc (a : Word) (p : Byte × Flags) : (s.writeF a p).pc = s.pc := by simp [State.writeF]
@[simp] theorem State.writeF_i (a : Word) (p : Byte × Flags) : (s.writeF a p).i = s.i := by simp [State.writeF]
@[simp] theorem State.writeF_r (a : Word) (p : Byte × Flags) : (s.writeF a p).r = s.r := by simp [State.writeF]
@[simp] theorem State.writeF_iff1 (a : Word) (p : Byte × Flags) :
    (s.writeF a p).iff1 = s.iff1 := by simp [State.writeF]
@[simp] theorem State.writeF_iff2 (a : Word) (p : Byte × Flags) :
    (s.writeF a p).iff2 = s.iff2 := by simp [State.writeF]
@[simp] theorem State.writeF_im (a : Word) (p : Byte × Flags) : (s.writeF a p).im = s.im := by simp [State.writeF]
@[simp] theorem State.writeF_nmiPending (a : Word) (p : Byte × Flags) :
    (s.writeF a p).nmiPending = s.nmiPending := by simp [State.writeF]
@[simp] theorem State.writeF_noSample (a : Word) (p : Byte × Flags) :
    (s.writeF a p).noSample = s.noSample := by simp [State.writeF]
@[simp] theorem State.writeF_halted (a : Word) (p : Byte × Flags) :
    (s.writeF a p).halted = s.halted := by simp [State.writeF]
@[simp] theorem State.writeF_busGranted (a : Word) (p : Byte × Flags) :
    (s.writeF a p).busGranted = s.busGranted := by simp [State.writeF]
@[simp] theorem State.writeF_memMap (a : Word) (p : Byte × Flags) :
    (s.writeF a p).memMap = s.memMap := by simp [State.writeF]
@[simp] theorem State.writeF_params (a : Word) (p : Byte × Flags) :
    (s.writeF a p).params = s.params := by simp [State.writeF]
@[simp] theorem State.writeF_inputs (a : Word) (p : Byte × Flags) :
    (s.writeF a p).inputs = s.inputs := by simp [State.writeF]
@[simp] theorem State.writeF_tStates (a : Word) (p : Byte × Flags) :
    (s.writeF a p).tStates = s.tStates := by simp [State.writeF]
@[simp] theorem State.writeF_regs (a : Word) (p : Byte × Flags) :
    (s.writeF a p).regs = { s.regs with f := p.2 } := by simp [State.writeF]

/-! ### callTo -/

@[simp] theorem State.callTo_regs (v : Word) : (s.callTo v).regs = s.regs := by simp [State.callTo]
@[simp] theorem State.callTo_alt (v : Word) : (s.callTo v).alt = s.alt := by simp [State.callTo]
@[simp] theorem State.callTo_ix (v : Word) : (s.callTo v).ix = s.ix := by simp [State.callTo]
@[simp] theorem State.callTo_iy (v : Word) : (s.callTo v).iy = s.iy := by simp [State.callTo]
@[simp] theorem State.callTo_i (v : Word) : (s.callTo v).i = s.i := by simp [State.callTo]
@[simp] theorem State.callTo_r (v : Word) : (s.callTo v).r = s.r := by simp [State.callTo]
@[simp] theorem State.callTo_iff1 (v : Word) : (s.callTo v).iff1 = s.iff1 := by simp [State.callTo]
@[simp] theorem State.callTo_iff2 (v : Word) : (s.callTo v).iff2 = s.iff2 := by simp [State.callTo]
@[simp] theorem State.callTo_im (v : Word) : (s.callTo v).im = s.im := by simp [State.callTo]
@[simp] theorem State.callTo_nmiPending (v : Word) : (s.callTo v).nmiPending = s.nmiPending := by simp [State.callTo]
@[simp] theorem State.callTo_noSample (v : Word) : (s.callTo v).noSample = s.noSample := by simp [State.callTo]
@[simp] theorem State.callTo_halted (v : Word) : (s.callTo v).halted = s.halted := by simp [State.callTo]
@[simp] theorem State.callTo_busGranted (v : Word) : (s.callTo v).busGranted = s.busGranted := by simp [State.callTo]
@[simp] theorem State.callTo_memMap (v : Word) : (s.callTo v).memMap = s.memMap := by simp [State.callTo]
@[simp] theorem State.callTo_params (v : Word) : (s.callTo v).params = s.params := by simp [State.callTo]
@[simp] theorem State.callTo_inputs (v : Word) : (s.callTo v).inputs = s.inputs := by simp [State.callTo]
@[simp] theorem State.callTo_tStates (v : Word) : (s.callTo v).tStates = s.tStates := by simp [State.callTo]
@[simp] theorem State.callTo_pc (v : Word) : (s.callTo v).pc = v := by simp [State.callTo]
@[simp] theorem State.callTo_sp (v : Word) : (s.callTo v).sp = s.sp - 2#16 := by simp [State.callTo]

/-! ### returnToPopped -/

@[simp] theorem State.returnToPopped_regs : (s.returnToPopped).regs = s.regs := by simp [State.returnToPopped]
@[simp] theorem State.returnToPopped_alt : (s.returnToPopped).alt = s.alt := by simp [State.returnToPopped]
@[simp] theorem State.returnToPopped_ix : (s.returnToPopped).ix = s.ix := by simp [State.returnToPopped]
@[simp] theorem State.returnToPopped_iy : (s.returnToPopped).iy = s.iy := by simp [State.returnToPopped]
@[simp] theorem State.returnToPopped_i : (s.returnToPopped).i = s.i := by simp [State.returnToPopped]
@[simp] theorem State.returnToPopped_r : (s.returnToPopped).r = s.r := by simp [State.returnToPopped]
@[simp] theorem State.returnToPopped_iff1 : (s.returnToPopped).iff1 = s.iff1 := by simp [State.returnToPopped]
@[simp] theorem State.returnToPopped_iff2 : (s.returnToPopped).iff2 = s.iff2 := by simp [State.returnToPopped]
@[simp] theorem State.returnToPopped_im : (s.returnToPopped).im = s.im := by simp [State.returnToPopped]
@[simp] theorem State.returnToPopped_nmiPending :
    (s.returnToPopped).nmiPending = s.nmiPending := by simp [State.returnToPopped]
@[simp] theorem State.returnToPopped_noSample :
    (s.returnToPopped).noSample = s.noSample := by simp [State.returnToPopped]
@[simp] theorem State.returnToPopped_halted : (s.returnToPopped).halted = s.halted := by simp [State.returnToPopped]
@[simp] theorem State.returnToPopped_busGranted :
    (s.returnToPopped).busGranted = s.busGranted := by simp [State.returnToPopped]
@[simp] theorem State.returnToPopped_memMap : (s.returnToPopped).memMap = s.memMap := by simp [State.returnToPopped]
@[simp] theorem State.returnToPopped_params : (s.returnToPopped).params = s.params := by simp [State.returnToPopped]
@[simp] theorem State.returnToPopped_inputs : (s.returnToPopped).inputs = s.inputs := by simp [State.returnToPopped]
@[simp] theorem State.returnToPopped_tStates :
    (s.returnToPopped).tStates = s.tStates := by simp [State.returnToPopped]
@[simp] theorem State.returnToPopped_pc : (s.returnToPopped).pc = s.top16 := by simp [State.returnToPopped]
@[simp] theorem State.returnToPopped_sp : (s.returnToPopped).sp = s.sp + 2#16 := by simp [State.returnToPopped]

/-! ### returnFromNmi -/

@[simp] theorem State.returnFromNmi_regs : (s.returnFromNmi).regs = s.regs := by simp [State.returnFromNmi]
@[simp] theorem State.returnFromNmi_alt : (s.returnFromNmi).alt = s.alt := by simp [State.returnFromNmi]
@[simp] theorem State.returnFromNmi_ix : (s.returnFromNmi).ix = s.ix := by simp [State.returnFromNmi]
@[simp] theorem State.returnFromNmi_iy : (s.returnFromNmi).iy = s.iy := by simp [State.returnFromNmi]
@[simp] theorem State.returnFromNmi_i : (s.returnFromNmi).i = s.i := by simp [State.returnFromNmi]
@[simp] theorem State.returnFromNmi_r : (s.returnFromNmi).r = s.r := by simp [State.returnFromNmi]
@[simp] theorem State.returnFromNmi_iff2 : (s.returnFromNmi).iff2 = s.iff2 := by simp [State.returnFromNmi]
@[simp] theorem State.returnFromNmi_im : (s.returnFromNmi).im = s.im := by simp [State.returnFromNmi]
@[simp] theorem State.returnFromNmi_nmiPending :
    (s.returnFromNmi).nmiPending = s.nmiPending := by simp [State.returnFromNmi]
@[simp] theorem State.returnFromNmi_noSample :
    (s.returnFromNmi).noSample = s.noSample := by simp [State.returnFromNmi]
@[simp] theorem State.returnFromNmi_halted : (s.returnFromNmi).halted = s.halted := by simp [State.returnFromNmi]
@[simp] theorem State.returnFromNmi_busGranted :
    (s.returnFromNmi).busGranted = s.busGranted := by simp [State.returnFromNmi]
@[simp] theorem State.returnFromNmi_memMap : (s.returnFromNmi).memMap = s.memMap := by simp [State.returnFromNmi]
@[simp] theorem State.returnFromNmi_params : (s.returnFromNmi).params = s.params := by simp [State.returnFromNmi]
@[simp] theorem State.returnFromNmi_inputs : (s.returnFromNmi).inputs = s.inputs := by simp [State.returnFromNmi]
@[simp] theorem State.returnFromNmi_tStates : (s.returnFromNmi).tStates = s.tStates := by simp [State.returnFromNmi]
@[simp] theorem State.returnFromNmi_pc : (s.returnFromNmi).pc = s.top16 := by simp [State.returnFromNmi]
@[simp] theorem State.returnFromNmi_sp : (s.returnFromNmi).sp = s.sp + 2#16 := by simp [State.returnFromNmi]
@[simp] theorem State.returnFromNmi_iff1 : (s.returnFromNmi).iff1 = s.iff2 := by simp [State.returnFromNmi]

/-! ### returnFromInt -/

@[simp] theorem State.returnFromInt_regs : (s.returnFromInt).regs = s.regs := by simp [State.returnFromInt]
@[simp] theorem State.returnFromInt_alt : (s.returnFromInt).alt = s.alt := by simp [State.returnFromInt]
@[simp] theorem State.returnFromInt_ix : (s.returnFromInt).ix = s.ix := by simp [State.returnFromInt]
@[simp] theorem State.returnFromInt_iy : (s.returnFromInt).iy = s.iy := by simp [State.returnFromInt]
@[simp] theorem State.returnFromInt_i : (s.returnFromInt).i = s.i := by simp [State.returnFromInt]
@[simp] theorem State.returnFromInt_r : (s.returnFromInt).r = s.r := by simp [State.returnFromInt]
@[simp] theorem State.returnFromInt_iff2 : (s.returnFromInt).iff2 = s.iff2 := by simp [State.returnFromInt]
@[simp] theorem State.returnFromInt_im : (s.returnFromInt).im = s.im := by simp [State.returnFromInt]
@[simp] theorem State.returnFromInt_nmiPending :
    (s.returnFromInt).nmiPending = s.nmiPending := by simp [State.returnFromInt]
@[simp] theorem State.returnFromInt_noSample :
    (s.returnFromInt).noSample = s.noSample := by simp [State.returnFromInt]
@[simp] theorem State.returnFromInt_halted : (s.returnFromInt).halted = s.halted := by simp [State.returnFromInt]
@[simp] theorem State.returnFromInt_busGranted :
    (s.returnFromInt).busGranted = s.busGranted := by simp [State.returnFromInt]
@[simp] theorem State.returnFromInt_memMap : (s.returnFromInt).memMap = s.memMap := by simp [State.returnFromInt]
@[simp] theorem State.returnFromInt_params : (s.returnFromInt).params = s.params := by simp [State.returnFromInt]
@[simp] theorem State.returnFromInt_inputs : (s.returnFromInt).inputs = s.inputs := by simp [State.returnFromInt]
@[simp] theorem State.returnFromInt_tStates : (s.returnFromInt).tStates = s.tStates := by simp [State.returnFromInt]
@[simp] theorem State.returnFromInt_sp : (s.returnFromInt).sp = s.sp + 2#16 := by simp [State.returnFromInt]
@[simp] theorem State.returnFromInt_iff1 :
    (s.returnFromInt).iff1 = if s.params.retiCopiesIff2 then s.iff2 else s.iff1 := by simp [State.returnFromInt]

/-! ### callVector -/

@[simp] theorem State.callVector_regs (v : Byte) : (s.callVector v).regs = s.regs := by simp [State.callVector]
@[simp] theorem State.callVector_alt (v : Byte) : (s.callVector v).alt = s.alt := by simp [State.callVector]
@[simp] theorem State.callVector_ix (v : Byte) : (s.callVector v).ix = s.ix := by simp [State.callVector]
@[simp] theorem State.callVector_iy (v : Byte) : (s.callVector v).iy = s.iy := by simp [State.callVector]
@[simp] theorem State.callVector_i (v : Byte) : (s.callVector v).i = s.i := by simp [State.callVector]
@[simp] theorem State.callVector_r (v : Byte) : (s.callVector v).r = s.r := by simp [State.callVector]
@[simp] theorem State.callVector_iff1 (v : Byte) : (s.callVector v).iff1 = s.iff1 := by simp [State.callVector]
@[simp] theorem State.callVector_iff2 (v : Byte) : (s.callVector v).iff2 = s.iff2 := by simp [State.callVector]
@[simp] theorem State.callVector_im (v : Byte) : (s.callVector v).im = s.im := by simp [State.callVector]
@[simp] theorem State.callVector_nmiPending (v : Byte) :
    (s.callVector v).nmiPending = s.nmiPending := by simp [State.callVector]
@[simp] theorem State.callVector_noSample (v : Byte) :
    (s.callVector v).noSample = s.noSample := by simp [State.callVector]
@[simp] theorem State.callVector_halted (v : Byte) : (s.callVector v).halted = s.halted := by simp [State.callVector]
@[simp] theorem State.callVector_busGranted (v : Byte) :
    (s.callVector v).busGranted = s.busGranted := by simp [State.callVector]
@[simp] theorem State.callVector_memMap (v : Byte) : (s.callVector v).memMap = s.memMap := by simp [State.callVector]
@[simp] theorem State.callVector_params (v : Byte) : (s.callVector v).params = s.params := by simp [State.callVector]
@[simp] theorem State.callVector_inputs (v : Byte) : (s.callVector v).inputs = s.inputs := by simp [State.callVector]
@[simp] theorem State.callVector_tStates (v : Byte) :
    (s.callVector v).tStates = s.tStates := by simp [State.callVector]
@[simp] theorem State.callVector_sp (v : Byte) : (s.callVector v).sp = s.sp - 2#16 := by simp [State.callVector]

/-! ### fetchByte -/

@[simp] theorem State.fetchByte_regs (o : Bool) :
    (s.fetchByte o).regs = s.regs := by cases o <;> simp [State.fetchByte]
@[simp] theorem State.fetchByte_alt (o : Bool) : (s.fetchByte o).alt = s.alt := by cases o <;> simp [State.fetchByte]
@[simp] theorem State.fetchByte_ix (o : Bool) : (s.fetchByte o).ix = s.ix := by cases o <;> simp [State.fetchByte]
@[simp] theorem State.fetchByte_iy (o : Bool) : (s.fetchByte o).iy = s.iy := by cases o <;> simp [State.fetchByte]
@[simp] theorem State.fetchByte_sp (o : Bool) : (s.fetchByte o).sp = s.sp := by cases o <;> simp [State.fetchByte]
@[simp] theorem State.fetchByte_i (o : Bool) : (s.fetchByte o).i = s.i := by cases o <;> simp [State.fetchByte]
@[simp] theorem State.fetchByte_iff1 (o : Bool) :
    (s.fetchByte o).iff1 = s.iff1 := by cases o <;> simp [State.fetchByte]
@[simp] theorem State.fetchByte_iff2 (o : Bool) :
    (s.fetchByte o).iff2 = s.iff2 := by cases o <;> simp [State.fetchByte]
@[simp] theorem State.fetchByte_im (o : Bool) : (s.fetchByte o).im = s.im := by cases o <;> simp [State.fetchByte]
@[simp] theorem State.fetchByte_nmiPending (o : Bool) :
    (s.fetchByte o).nmiPending = s.nmiPending := by cases o <;> simp [State.fetchByte]
@[simp] theorem State.fetchByte_noSample (o : Bool) :
    (s.fetchByte o).noSample = s.noSample := by cases o <;> simp [State.fetchByte]
@[simp] theorem State.fetchByte_halted (o : Bool) :
    (s.fetchByte o).halted = s.halted := by cases o <;> simp [State.fetchByte]
@[simp] theorem State.fetchByte_busGranted (o : Bool) :
    (s.fetchByte o).busGranted = s.busGranted := by cases o <;> simp [State.fetchByte]
@[simp] theorem State.fetchByte_memMap (o : Bool) :
    (s.fetchByte o).memMap = s.memMap := by cases o <;> simp [State.fetchByte]
@[simp] theorem State.fetchByte_params (o : Bool) :
    (s.fetchByte o).params = s.params := by cases o <;> simp [State.fetchByte]
@[simp] theorem State.fetchByte_inputs (o : Bool) :
    (s.fetchByte o).inputs = s.inputs := by cases o <;> simp [State.fetchByte]
@[simp] theorem State.fetchByte_tStates (o : Bool) :
    (s.fetchByte o).tStates = s.tStates := by cases o <;> simp [State.fetchByte]
@[simp] theorem State.fetchByte_pc (o : Bool) :
    (s.fetchByte o).pc = s.pc + 1#16 := by cases o <;> simp [State.fetchByte]
@[simp] theorem State.fetchByte_r (o : Bool) :
    (s.fetchByte o).r = if o then refreshed 1 s.r else s.r := by cases o <;> simp [State.fetchByte]

/-! ### deviceEvents -/

/-- What every event leaves alone, a list of them leaves alone. -/
theorem State.deviceEvents_keeps {α : Type} {f : State → α} (hf : ∀ s e, f (s.applyEvent e) = f s)
    (es : List DeviceEvent) (s : State) : f (s.deviceEvents es) = f s := by
  unfold State.deviceEvents
  induction es generalizing s with
  | nil => rfl
  | cons e t ih => exact (ih _).trans (hf s e)

@[simp] theorem State.deviceEvents_regs (es : List DeviceEvent) :
    (s.deviceEvents es).regs = s.regs := State.deviceEvents_keeps (f := State.regs) (fun s e => s.applyEvent_regs e) es s
@[simp] theorem State.deviceEvents_alt (es : List DeviceEvent) :
    (s.deviceEvents es).alt = s.alt := State.deviceEvents_keeps (f := State.alt) (fun s e => s.applyEvent_alt e) es s
@[simp] theorem State.deviceEvents_ix (es : List DeviceEvent) :
    (s.deviceEvents es).ix = s.ix := State.deviceEvents_keeps (f := State.ix) (fun s e => s.applyEvent_ix e) es s
@[simp] theorem State.deviceEvents_iy (es : List DeviceEvent) :
    (s.deviceEvents es).iy = s.iy := State.deviceEvents_keeps (f := State.iy) (fun s e => s.applyEvent_iy e) es s
@[simp] theorem State.deviceEvents_sp (es : List DeviceEvent) :
    (s.deviceEvents es).sp = s.sp := State.deviceEvents_keeps (f := State.sp) (fun s e => s.applyEvent_sp e) es s
@[simp] theorem State.deviceEvents_pc (es : List DeviceEvent) :
    (s.deviceEvents es).pc = s.pc := State.deviceEvents_keeps (f := State.pc) (fun s e => s.applyEvent_pc e) es s
@[simp] theorem State.deviceEvents_i (es : List DeviceEvent) :
    (s.deviceEvents es).i = s.i := State.deviceEvents_keeps (f := State.i) (fun s e => s.applyEvent_i e) es s
@[simp] theorem State.deviceEvents_r (es : List DeviceEvent) :
    (s.deviceEvents es).r = s.r := State.deviceEvents_keeps (f := State.r) (fun s e => s.applyEvent_r e) es s
@[simp] theorem State.deviceEvents_iff1 (es : List DeviceEvent) :
    (s.deviceEvents es).iff1 = s.iff1 := State.deviceEvents_keeps (f := State.iff1) (fun s e => s.applyEvent_iff1 e) es s
@[simp] theorem State.deviceEvents_iff2 (es : List DeviceEvent) :
    (s.deviceEvents es).iff2 = s.iff2 := State.deviceEvents_keeps (f := State.iff2) (fun s e => s.applyEvent_iff2 e) es s
@[simp] theorem State.deviceEvents_im (es : List DeviceEvent) :
    (s.deviceEvents es).im = s.im := State.deviceEvents_keeps (f := State.im) (fun s e => s.applyEvent_im e) es s
@[simp] theorem State.deviceEvents_nmiPending (es : List DeviceEvent) :
    (s.deviceEvents es).nmiPending = s.nmiPending := State.deviceEvents_keeps (f := State.nmiPending) (fun s e => s.applyEvent_nmiPending e) es s
@[simp] theorem State.deviceEvents_noSample (es : List DeviceEvent) :
    (s.deviceEvents es).noSample = s.noSample := State.deviceEvents_keeps (f := State.noSample) (fun s e => s.applyEvent_noSample e) es s
@[simp] theorem State.deviceEvents_halted (es : List DeviceEvent) :
    (s.deviceEvents es).halted = s.halted := State.deviceEvents_keeps (f := State.halted) (fun s e => s.applyEvent_halted e) es s
@[simp] theorem State.deviceEvents_busGranted (es : List DeviceEvent) :
    (s.deviceEvents es).busGranted = s.busGranted := State.deviceEvents_keeps (f := State.busGranted) (fun s e => s.applyEvent_busGranted e) es s
@[simp] theorem State.deviceEvents_mem (es : List DeviceEvent) :
    (s.deviceEvents es).mem = s.mem := State.deviceEvents_keeps (f := State.mem) (fun s e => s.applyEvent_mem e) es s
@[simp] theorem State.deviceEvents_memMap (es : List DeviceEvent) :
    (s.deviceEvents es).memMap = s.memMap := State.deviceEvents_keeps (f := State.memMap) (fun s e => s.applyEvent_memMap e) es s
@[simp] theorem State.deviceEvents_params (es : List DeviceEvent) :
    (s.deviceEvents es).params = s.params := State.deviceEvents_keeps (f := State.params) (fun s e => s.applyEvent_params e) es s
@[simp] theorem State.deviceEvents_inputs (es : List DeviceEvent) :
    (s.deviceEvents es).inputs = s.inputs := State.deviceEvents_keeps (f := State.inputs) (fun s e => s.applyEvent_inputs e) es s
@[simp] theorem State.deviceEvents_ioReplies (es : List DeviceEvent) :
    (s.deviceEvents es).ioReplies = s.ioReplies := State.deviceEvents_keeps (f := State.ioReplies) (fun s e => s.applyEvent_ioReplies e) es s
@[simp] theorem State.deviceEvents_memReplies (es : List DeviceEvent) :
    (s.deviceEvents es).memReplies = s.memReplies := State.deviceEvents_keeps (f := State.memReplies) (fun s e => s.applyEvent_memReplies e) es s
@[simp] theorem State.deviceEvents_cycleDma (es : List DeviceEvent) :
    (s.deviceEvents es).cycleDma = s.cycleDma := State.deviceEvents_keeps (f := State.cycleDma) (fun s e => s.applyEvent_cycleDma e) es s
@[simp] theorem State.deviceEvents_busLog (es : List DeviceEvent) :
    (s.deviceEvents es).busLog = s.busLog := State.deviceEvents_keeps (f := State.busLog) (fun s e => s.applyEvent_busLog e) es s
@[simp] theorem State.deviceEvents_tStates (es : List DeviceEvent) :
    (s.deviceEvents es).tStates = s.tStates := State.deviceEvents_keeps (f := State.tStates) (fun s e => s.applyEvent_tStates e) es s

/-! ### arrive -/

@[simp] theorem State.arrive_regs (b : BoundaryInput) : (s.arrive b).regs = s.regs := by simp [State.arrive]
@[simp] theorem State.arrive_alt (b : BoundaryInput) : (s.arrive b).alt = s.alt := by simp [State.arrive]
@[simp] theorem State.arrive_ix (b : BoundaryInput) : (s.arrive b).ix = s.ix := by simp [State.arrive]
@[simp] theorem State.arrive_iy (b : BoundaryInput) : (s.arrive b).iy = s.iy := by simp [State.arrive]
@[simp] theorem State.arrive_sp (b : BoundaryInput) : (s.arrive b).sp = s.sp := by simp [State.arrive]
@[simp] theorem State.arrive_pc (b : BoundaryInput) : (s.arrive b).pc = s.pc := by simp [State.arrive]
@[simp] theorem State.arrive_i (b : BoundaryInput) : (s.arrive b).i = s.i := by simp [State.arrive]
@[simp] theorem State.arrive_r (b : BoundaryInput) : (s.arrive b).r = s.r := by simp [State.arrive]
@[simp] theorem State.arrive_iff1 (b : BoundaryInput) : (s.arrive b).iff1 = s.iff1 := by simp [State.arrive]
@[simp] theorem State.arrive_iff2 (b : BoundaryInput) : (s.arrive b).iff2 = s.iff2 := by simp [State.arrive]
@[simp] theorem State.arrive_im (b : BoundaryInput) : (s.arrive b).im = s.im := by simp [State.arrive]
@[simp] theorem State.arrive_noSample (b : BoundaryInput) :
    (s.arrive b).noSample = s.noSample := by simp [State.arrive]
@[simp] theorem State.arrive_halted (b : BoundaryInput) : (s.arrive b).halted = s.halted := by simp [State.arrive]
@[simp] theorem State.arrive_busGranted (b : BoundaryInput) :
    (s.arrive b).busGranted = s.busGranted := by simp [State.arrive]
@[simp] theorem State.arrive_mem (b : BoundaryInput) : (s.arrive b).mem = s.mem := by simp [State.arrive]
@[simp] theorem State.arrive_memMap (b : BoundaryInput) : (s.arrive b).memMap = s.memMap := by simp [State.arrive]
@[simp] theorem State.arrive_params (b : BoundaryInput) : (s.arrive b).params = s.params := by simp [State.arrive]
@[simp] theorem State.arrive_ioReplies (b : BoundaryInput) :
    (s.arrive b).ioReplies = s.ioReplies := by simp [State.arrive]
@[simp] theorem State.arrive_memReplies (b : BoundaryInput) :
    (s.arrive b).memReplies = s.memReplies := by simp [State.arrive]
@[simp] theorem State.arrive_cycleDma (b : BoundaryInput) :
    (s.arrive b).cycleDma = s.cycleDma := by simp [State.arrive]
@[simp] theorem State.arrive_busLog (b : BoundaryInput) : (s.arrive b).busLog = s.busLog := by simp [State.arrive]
@[simp] theorem State.arrive_nmiPending (b : BoundaryInput) :
    (s.arrive b).nmiPending = (s.nmiPending || b.nmiEdge) := by simp [State.arrive]
@[simp] theorem State.arrive_inputs (b : BoundaryInput) :
    (s.arrive b).inputs = s.inputs.tail := by simp [State.arrive]
@[simp] theorem State.arrive_tStates (b : BoundaryInput) :
    (s.arrive b).tStates = s.tStates + b.waitStates := by simp [State.arrive]

/-! ### grantBus -/

@[simp] theorem State.grantBus_regs (l : List DmaAccess) : (s.grantBus l).regs = s.regs := by simp [State.grantBus]
@[simp] theorem State.grantBus_alt (l : List DmaAccess) : (s.grantBus l).alt = s.alt := by simp [State.grantBus]
@[simp] theorem State.grantBus_ix (l : List DmaAccess) : (s.grantBus l).ix = s.ix := by simp [State.grantBus]
@[simp] theorem State.grantBus_iy (l : List DmaAccess) : (s.grantBus l).iy = s.iy := by simp [State.grantBus]
@[simp] theorem State.grantBus_sp (l : List DmaAccess) : (s.grantBus l).sp = s.sp := by simp [State.grantBus]
@[simp] theorem State.grantBus_pc (l : List DmaAccess) : (s.grantBus l).pc = s.pc := by simp [State.grantBus]
@[simp] theorem State.grantBus_i (l : List DmaAccess) : (s.grantBus l).i = s.i := by simp [State.grantBus]
@[simp] theorem State.grantBus_r (l : List DmaAccess) : (s.grantBus l).r = s.r := by simp [State.grantBus]
@[simp] theorem State.grantBus_iff1 (l : List DmaAccess) : (s.grantBus l).iff1 = s.iff1 := by simp [State.grantBus]
@[simp] theorem State.grantBus_iff2 (l : List DmaAccess) : (s.grantBus l).iff2 = s.iff2 := by simp [State.grantBus]
@[simp] theorem State.grantBus_im (l : List DmaAccess) : (s.grantBus l).im = s.im := by simp [State.grantBus]
@[simp] theorem State.grantBus_nmiPending (l : List DmaAccess) :
    (s.grantBus l).nmiPending = s.nmiPending := by simp [State.grantBus]
@[simp] theorem State.grantBus_noSample (l : List DmaAccess) :
    (s.grantBus l).noSample = s.noSample := by simp [State.grantBus]
@[simp] theorem State.grantBus_halted (l : List DmaAccess) :
    (s.grantBus l).halted = s.halted := by simp [State.grantBus]
@[simp] theorem State.grantBus_memMap (l : List DmaAccess) :
    (s.grantBus l).memMap = s.memMap := by simp [State.grantBus]
@[simp] theorem State.grantBus_params (l : List DmaAccess) :
    (s.grantBus l).params = s.params := by simp [State.grantBus]
@[simp] theorem State.grantBus_inputs (l : List DmaAccess) :
    (s.grantBus l).inputs = s.inputs := by simp [State.grantBus]
@[simp] theorem State.grantBus_tStates (l : List DmaAccess) :
    (s.grantBus l).tStates = s.tStates := by simp [State.grantBus]
@[simp] theorem State.grantBus_busGranted (l : List DmaAccess) :
    (s.grantBus l).busGranted = true := by simp [State.grantBus]

/-! ### abandoned -/

@[simp] theorem State.abandoned_regs (u : State) : (s.abandoned u).regs = u.regs := rfl
@[simp] theorem State.abandoned_alt (u : State) : (s.abandoned u).alt = u.alt := rfl
@[simp] theorem State.abandoned_ix (u : State) : (s.abandoned u).ix = u.ix := rfl
@[simp] theorem State.abandoned_iy (u : State) : (s.abandoned u).iy = u.iy := rfl
@[simp] theorem State.abandoned_sp (u : State) : (s.abandoned u).sp = u.sp := rfl
@[simp] theorem State.abandoned_pc (u : State) : (s.abandoned u).pc = u.pc := rfl
@[simp] theorem State.abandoned_i (u : State) : (s.abandoned u).i = u.i := rfl
@[simp] theorem State.abandoned_r (u : State) : (s.abandoned u).r = u.r := rfl
@[simp] theorem State.abandoned_iff1 (u : State) : (s.abandoned u).iff1 = u.iff1 := rfl
@[simp] theorem State.abandoned_iff2 (u : State) : (s.abandoned u).iff2 = u.iff2 := rfl
@[simp] theorem State.abandoned_im (u : State) : (s.abandoned u).im = u.im := rfl
@[simp] theorem State.abandoned_nmiPending (u : State) : (s.abandoned u).nmiPending = u.nmiPending := rfl
@[simp] theorem State.abandoned_noSample (u : State) : (s.abandoned u).noSample = u.noSample := rfl
@[simp] theorem State.abandoned_halted (u : State) : (s.abandoned u).halted = u.halted := rfl
@[simp] theorem State.abandoned_busGranted (u : State) : (s.abandoned u).busGranted = u.busGranted := rfl
@[simp] theorem State.abandoned_memMap (u : State) : (s.abandoned u).memMap = u.memMap := rfl
@[simp] theorem State.abandoned_params (u : State) : (s.abandoned u).params = u.params := rfl
@[simp] theorem State.abandoned_inputs (u : State) : (s.abandoned u).inputs = u.inputs := rfl
@[simp] theorem State.abandoned_tStates (u : State) : (s.abandoned u).tStates = u.tStates := rfl
@[simp] theorem State.abandoned_cycleDma (u : State) : (s.abandoned u).cycleDma = u.cycleDma := rfl
@[simp] theorem State.abandoned_draws (u : State) : (s.abandoned u).draws = u.draws + 65537 := rfl
@[simp] theorem State.abandoned_mem (u : State) :
    (s.abandoned u).mem = Memory.mixed (fun a => Config.freeBit (u.draws + a)) s.mem u.mem := rfl

/-! ### Undisturbed (20_memory.md R75): no other bus master acts inside an instruction -/

variable {s}

theorem State.endCycle_eq (h : s.Undisturbed) : s.endCycle = s := by
  unfold State.endCycle
  rcases h with h | h
  · rw [h]
  · rw [h]; cases s.params.dmaGrain <;> rfl

/-- With the same parameter and the same queue, the same. -/
theorem State.Undisturbed.congr {t : State} (hp : t.params = s.params) (hc : t.cycleDma = s.cycleDma)
    (h : s.Undisturbed) : t.Undisturbed := by
  unfold State.Undisturbed; rw [hp, hc]; exact h

theorem State.afterRead8_eq (h : s.Undisturbed) (a : Word) :
    s.afterRead8 a = (s.answerMem a).logged (.memRead a (s.read8 a)) :=
  State.endCycle_eq (h.congr (by simp) (by simp))

theorem State.write8_eq (h : s.Undisturbed) (a : Word) (v : Byte) :
    s.write8 a v = (s.storeMem a v).logged (.memWrite a v) :=
  State.endCycle_eq (h.congr (by simp) (by simp))

theorem State.afterFetch_eq (h : s.Undisturbed) :
    s.afterFetch = (s.answerMem s.pc).m1Cycle.logged (.opFetch s.pc (s.read8 s.pc)) :=
  State.endCycle_eq (h.congr (by simp) (by simp))

theorem State.afterIoRead_eq (h : s.Undisturbed) (port : Word) :
    s.afterIoRead port = (s.answerIo port).logged (.ioRead port (s.ioValue port)) :=
  State.endCycle_eq (h.congr (by simp) (by simp))

theorem State.ioWrite_eq (h : s.Undisturbed) (port : Word) (v : Byte) :
    s.ioWrite port v = (s.storeIo port v).logged (.ioWrite port v) :=
  State.endCycle_eq (h.congr (by simp) (by simp))

theorem State.afterIntAck_eq (h : s.Undisturbed) (b : Byte) :
    s.afterIntAck b = s.answerAck.m1Cycle.logged (.intAck (s.ackByte b)) :=
  State.endCycle_eq (h.congr (by simp) (by simp))

theorem State.Undisturbed.afterRead8 (h : s.Undisturbed) (a : Word) : (s.afterRead8 a).Undisturbed := by
  rw [State.afterRead8_eq h]; exact h.congr (by simp) (by simp)

theorem State.Undisturbed.write8 (h : s.Undisturbed) (a : Word) (v : Byte) : (s.write8 a v).Undisturbed := by
  rw [State.write8_eq h]; exact h.congr (by simp) (by simp)

theorem State.Undisturbed.afterFetch (h : s.Undisturbed) : s.afterFetch.Undisturbed := by
  rw [State.afterFetch_eq h]; exact h.congr (by simp) (by simp)

theorem State.Undisturbed.afterIoRead (h : s.Undisturbed) (port : Word) : (s.afterIoRead port).Undisturbed := by
  rw [State.afterIoRead_eq h]; exact h.congr (by simp) (by simp)

/-! ### Reads of RAM and ROM -/

/-- A read of RAM or ROM finds what memory holds. -/
theorem State.read8_plain {a : Word} (h : kindAt s.memMap a = none ∨ kindAt s.memMap a = some .rom) :
    s.read8 a = s.byteAt a := by
  unfold State.read8 State.memByte
  rcases h with h | h <;> rw [h]

/-- And changes nothing. -/
theorem State.answerMem_plain {a : Word} (h : kindAt s.memMap a = none ∨ kindAt s.memMap a = some .rom) :
    s.answerMem a = s := by
  unfold State.answerMem
  rcases h with h | h <;> rw [h]

end Sys2Proof.Machine
end

