-- ==== Sys2Proof/Laws/Memory.lean ====
section
/-! SUPPORT. The laws of memory: every write keeps the canonical form, a read after a write to the same address gives
the value written, and a write leaves every other address alone. -/

namespace Sys2Proof.Machine

theorem Memory.wfFrom_cons {lo a : Nat} {v : Byte} {t : Memory} :
    Memory.wfFrom lo ((a, v) :: t) = true ↔
      lo ≤ a ∧ a < 65536 ∧ v ≠ unlistedByte ∧ Memory.wfFrom (a + 1) t = true := by
  simp [Memory.wfFrom, and_assoc]

theorem Memory.wfFrom_mono {lo lo' : Nat} (m : Memory) (h : lo' ≤ lo) (hm : Memory.wfFrom lo m = true) :
    Memory.wfFrom lo' m = true := by
  cases m with
  | nil => rfl
  | cons p t =>
    obtain ⟨h1, h2⟩ := Memory.wfFrom_cons.1 hm
    exact Memory.wfFrom_cons.2 ⟨h.trans h1, h2⟩

/-- Below the first listed address everything reads as unlisted. -/
theorem Memory.read_of_lt {lo a : Nat} (m : Memory) (hm : Memory.wfFrom lo m = true) (h : a < lo) :
    Memory.read m a = unlistedByte := by
  induction m generalizing lo with
  | nil => rfl
  | cons p t ih =>
    obtain ⟨b, v⟩ := p
    obtain ⟨h1, _, _, h4⟩ := Memory.wfFrom_cons.1 hm
    have hne : a ≠ b := by omega
    simp only [Memory.read, if_neg hne]
    exact ih h4 (by omega)

theorem Memory.wfFrom_write {lo a : Nat} {v : Byte} (m : Memory) (hm : Memory.wfFrom lo m = true) (hlo : lo ≤ a)
    (ha : a < 65536) : Memory.wfFrom lo (Memory.write m a v) = true := by
  induction m generalizing lo with
  | nil =>
    by_cases hv : v = unlistedByte
    · simp [Memory.write, hv, Memory.wfFrom]
    · simp only [Memory.write, if_neg hv]
      exact Memory.wfFrom_cons.2 ⟨hlo, ha, hv, rfl⟩
  | cons p t ih =>
    obtain ⟨b, w⟩ := p
    obtain ⟨h1, h2, h3, h4⟩ := Memory.wfFrom_cons.1 hm
    unfold Memory.write
    split
    · split
      · exact hm
      · next hab hv => exact Memory.wfFrom_cons.2 ⟨hlo, ha, hv, Memory.wfFrom_cons.2 ⟨hab, h2, h3, h4⟩⟩
    · split
      · next _ hab =>
        subst hab
        split
        · exact Memory.wfFrom_mono t (by omega) h4
        · next hv => exact Memory.wfFrom_cons.2 ⟨h1, ha, hv, h4⟩
      · exact Memory.wfFrom_cons.2 ⟨h1, h2, h3, ih h4 (by omega)⟩

/-- Every write keeps the canonical form. -/
theorem Memory.wf_write {a : Nat} {v : Byte} (m : Memory) (hm : m.wf = true) (ha : a < 65536) :
    (m.write a v).wf = true :=
  Memory.wfFrom_write m hm (Nat.zero_le a) ha

theorem Memory.read_write_from {lo a : Nat} {v : Byte} (m : Memory) (hm : Memory.wfFrom lo m = true) (c : Nat) :
    Memory.read (Memory.write m a v) c = if c = a then v else Memory.read m c := by
  induction m generalizing lo with
  | nil =>
    by_cases hv : v = unlistedByte <;> by_cases hc : c = a <;> simp [Memory.write, Memory.read, hv, hc]
  | cons p t ih =>
    obtain ⟨b, w⟩ := p
    have h4 := (Memory.wfFrom_cons.1 hm).2.2.2
    unfold Memory.write
    split
    · next hab =>
      have hlt : Memory.wfFrom b ((b, w) :: t) = true := by
        obtain ⟨_, h2, h3, h5⟩ := Memory.wfFrom_cons.1 hm
        exact Memory.wfFrom_cons.2 ⟨le_refl b, h2, h3, h5⟩
      split
      · next hv =>
        by_cases hc : c = a
        · subst hc
          rw [if_pos rfl, Memory.read_of_lt _ hlt hab, hv]
        · rw [if_neg hc]
      · by_cases hc : c = a <;> simp [Memory.read, hc]
    · split
      · next _ hab =>
        subst hab
        split
        · next hv =>
          by_cases hc : c = a
          · subst hc
            rw [if_pos rfl, Memory.read_of_lt t h4 (by omega), hv]
          · simp [Memory.read, hc]
        · by_cases hc : c = a <;> simp [Memory.read, hc]
      · next hab =>
        by_cases hc : c = b
        · have hca : c ≠ a := by omega
          simp [Memory.read, hc, show b ≠ a by omega]
        · simp only [Memory.read, if_neg hc]
          exact ih h4

/-- A read after a write. -/
theorem Memory.read_write {a : Nat} {v : Byte} (m : Memory) (hm : m.wf = true) (c : Nat) :
    (m.write a v).read c = if c = a then v else m.read c :=
  Memory.read_write_from m hm c

/-- Memory.mixed keeps the canonical form, and every byte of it is one of the two candidates. -/
theorem Memory.mixed_spec (pick : Nat → Bool) (old new : Memory) (ho : old.wf = true)
    (hl : ∀ c ∈ old ++ new, c.1 < 65536) :
    (Memory.mixed pick old new).wf = true ∧
      ∀ a, (Memory.mixed pick old new).read a = old.read a ∨ (Memory.mixed pick old new).read a = new.read a := by
  unfold Memory.mixed
  generalize old ++ new = l at hl
  suffices h : ∀ m : Memory, (m.wf = true ∧ ∀ a, m.read a = old.read a ∨ m.read a = new.read a) →
      ((l.foldl (fun m c => if pick c.1 then m.write c.1 (new.read c.1) else m) m).wf = true ∧
        ∀ a, (l.foldl (fun m c => if pick c.1 then m.write c.1 (new.read c.1) else m) m).read a = old.read a ∨
          (l.foldl (fun m c => if pick c.1 then m.write c.1 (new.read c.1) else m) m).read a = new.read a) from
    h old ⟨ho, fun _ => .inl rfl⟩
  induction l with
  | nil => exact fun m h => h
  | cons c t ih =>
    intro m hm
    refine ih (fun d hd => hl d (List.mem_cons_of_mem _ hd)) _ ?_
    dsimp only
    split
    · refine ⟨Memory.wf_write m hm.1 (hl c List.mem_cons_self), fun a => ?_⟩
      rw [Memory.read_write m hm.1]
      split
      · next h => subst h; exact .inr rfl
      · exact hm.2 a
    · exact hm

theorem Memory.lt_of_wfFrom {lo : Nat} (m : Memory) (h : Memory.wfFrom lo m = true) : ∀ c ∈ m, c.1 < 65536 := by
  induction m generalizing lo with
  | nil => intro c hc; cases hc
  | cons p t ih =>
    obtain ⟨b, v⟩ := p
    obtain ⟨_, h2, _, h4⟩ := Memory.wfFrom_cons.1 h
    intro c hc
    rcases List.mem_cons.1 hc with rfl | hc
    · exact h2
    · exact ih h4 c hc

/-- The addresses a canonical memory lists are addresses. -/
theorem Memory.lt_of_wf (m : Memory) (h : m.wf = true) : ∀ c ∈ m, c.1 < 65536 := Memory.lt_of_wfFrom m h

/-! ### Stores from the bus -/

/-- A store keeps the canonical form, whatever occupies the address. -/
theorem State.storeMem_wf (s : State) (a : Word) (v : Byte) (h : s.mem.wf = true) : (s.storeMem a v).mem.wf = true := by
  unfold State.storeMem
  dsimp only
  split
  · exact Memory.wf_write _ h a.isLt
  · exact h

/-- What memory holds after a store: the byte at a RAM address stored to, else what it held. -/
theorem State.byteAt_storeMem (s : State) (a : Word) (v : Byte) (h : s.mem.wf = true) (b : Word) :
    (s.storeMem a v).byteAt b = if b = a ∧ kindAt s.memMap a = none then v else s.byteAt b := by
  unfold State.byteAt State.storeMem
  dsimp only
  split
  · next hk => rw [Memory.read_write _ h]; simp [hk, BitVec.toNat_inj]
  · next k hk => simp [hk]

/-- A write to ROM, to a device or where nothing answers leaves memory alone (R480). -/
theorem State.storeMem_not_ram (s : State) (a : Word) (v : Byte) (k : RegionKind) (hk : kindAt s.memMap a = some k) :
    s.storeMem a v = s := by
  simp [State.storeMem, hk]

/-! ### The canonical form is kept by every bus cycle, and by another bus master -/

theorem State.dmaAccess_wf (s : State) (x : DmaAccess) (h : s.mem.wf = true) : (s.dmaAccess x).mem.wf = true := by
  cases x with
  | memRead a => simpa [State.dmaAccess] using h
  | memWrite a v => exact State.storeMem_wf s a v h
  | ioRead p => exact h
  | ioWrite p v => exact h

theorem State.dma_wf (l : List DmaAccess) (s : State) (h : s.mem.wf = true) : (s.dma l).mem.wf = true := by
  unfold State.dma
  induction l generalizing s with
  | nil => exact h
  | cons x t ih => exact ih _ (State.dmaAccess_wf s x h)

theorem State.endCycle_wf (s : State) (h : s.mem.wf = true) : s.endCycle.mem.wf = true := by
  unfold State.endCycle
  split
  · exact State.dma_wf _ _ h
  · exact h

theorem State.afterRead8_wf (s : State) (a : Word) (h : s.mem.wf = true) : (s.afterRead8 a).mem.wf = true :=
  State.endCycle_wf _ (by simpa using h)

theorem State.write8_wf (s : State) (a : Word) (v : Byte) (h : s.mem.wf = true) : (s.write8 a v).mem.wf = true :=
  State.endCycle_wf _ (State.storeMem_wf s a v h)

theorem State.afterFetch_wf (s : State) (h : s.mem.wf = true) : s.afterFetch.mem.wf = true :=
  State.endCycle_wf _ (by simpa using h)

theorem State.afterIoRead_wf (s : State) (p : Word) (h : s.mem.wf = true) : (s.afterIoRead p).mem.wf = true :=
  State.endCycle_wf _ h

theorem State.ioWrite_wf (s : State) (p : Word) (v : Byte) (h : s.mem.wf = true) : (s.ioWrite p v).mem.wf = true :=
  State.endCycle_wf _ h

theorem State.afterIntAck_wf (s : State) (b : Byte) (h : s.mem.wf = true) : (s.afterIntAck b).mem.wf = true :=
  State.endCycle_wf _ h

theorem State.afterRead16_wf (s : State) (a : Word) (h : s.mem.wf = true) : (s.afterRead16 a).mem.wf = true :=
  State.afterRead8_wf _ _ (State.afterRead8_wf _ _ h)

theorem State.write16_wf (s : State) (a v : Word) (h : s.mem.wf = true) : (s.write16 a v).mem.wf = true :=
  State.write8_wf _ _ _ (State.write8_wf _ _ _ h)

theorem State.push16_wf (s : State) (v : Word) (h : s.mem.wf = true) : (s.push16 v).mem.wf = true :=
  State.write8_wf _ _ _ (State.write8_wf _ _ _ h)

theorem State.drop16_wf (s : State) (h : s.mem.wf = true) : s.drop16.mem.wf = true := State.afterRead16_wf _ _ h

theorem State.replaceTop_wf (s : State) (v : Word) (h : s.mem.wf = true) : (s.replaceTop v).mem.wf = true :=
  State.write8_wf _ _ _ (State.write8_wf _ _ _ (State.afterRead16_wf _ _ h))

end Sys2Proof.Machine
end

