-- ==== Sys2Proof/Laws/Operations.lean ====
section
/-! SUPPORT. What the shared storing operations do, said once in the words of Safety.lean, so that no later proof unfolds
them; and the halves of words and the pairs. -/

namespace Sys2Proof.Machine

/-! ### Halves and pairs -/

@[simp] theorem highByte_append (a b : Byte) : highByte (a ++ b) = a := by
  unfold highByte
  ext i hi
  simp only [BitVec.getElem_extractLsb', BitVec.getLsbD_append]
  rw [if_neg (by omega), ← BitVec.getLsbD_eq_getElem]
  congr 1; omega

@[simp] theorem lowByte_append (a b : Byte) : lowByte (a ++ b) = b := by
  unfold lowByte
  ext i hi
  simp only [BitVec.getElem_extractLsb', BitVec.getLsbD_append]
  rw [if_pos (by omega), ← BitVec.getLsbD_eq_getElem]
  congr 1; omega

@[simp] theorem highByte_append_lowByte (v : Word) : highByte v ++ lowByte v = v := by
  unfold highByte lowByte
  ext i hi
  simp only [BitVec.getElem_append, BitVec.getElem_extractLsb', Nat.zero_add]
  split
  · rw [← BitVec.getLsbD_eq_getElem]
  · rw [← BitVec.getLsbD_eq_getElem]; congr 1; omega

@[simp] theorem State.bc_setBc (s : State) (v : Word) : (s.setBc v).bc = v := highByte_append_lowByte v
@[simp] theorem State.de_setDe (s : State) (v : Word) : (s.setDe v).de = v := highByte_append_lowByte v
@[simp] theorem State.hl_setHl (s : State) (v : Word) : (s.setHl v).hl = v := highByte_append_lowByte v

/-! ### Stores, when no other bus master acts meanwhile -/

/-- A byte store (R66). -/
theorem State.write8_took {s : State} (hu : s.Undisturbed) (a : Word) (v : Byte) (h : s.mem.wf = true) :
    TookByte s (s.write8 a v) a v := by
  rw [State.write8_eq hu]
  exact ⟨rfl, State.storeMem_wf s a v h, State.byteAt_storeMem s a v h⟩

/-- Two stores to different addresses. -/
theorem State.write8_write8_took {s : State} (hu : s.Undisturbed) (a a' : Word) (v w : Byte) (hne : a' ≠ a)
    (h : s.mem.wf = true) : TookTwo s ((s.write8 a v).write8 a' w) a v a' w := by
  have h1 := State.storeMem_wf s a v h
  have hu1 := hu.write8 a v
  rw [State.write8_eq hu1, State.write8_eq hu]
  refine ⟨rfl, State.storeMem_wf _ a' w h1, fun b => ?_⟩
  have e := State.byteAt_storeMem ((s.storeMem a v).logged (.memWrite a v)) a' w h1 b
  have e1 := State.byteAt_storeMem s a v h b
  change (State.storeMem ((s.storeMem a v).logged (.memWrite a v)) a' w).byteAt b = _
  rw [e]
  change (if b = a' ∧ kindAt s.memMap a' = none then w else (s.storeMem a v).byteAt b) = _
  rw [e1]
  by_cases hb : b = a
  · subst hb; simp [hne.symm]
  · simp [hb]

/-- A word store (R63, R66). -/
theorem State.write16_took {s : State} (hu : s.Undisturbed) (a v : Word) (h : s.mem.wf = true) :
    TookTwo s (s.write16 a v) a (lowByte v) (a + 1#16) (highByte v) :=
  State.write8_write8_took hu _ _ _ _ (by bv_omega) h

/-- A push (R175, R422). -/
theorem State.push16_took {s : State} (hu : s.Undisturbed) (v : Word) (h : s.mem.wf = true) :
    TookTwo { s with sp := s.sp - 2#16 } (s.push16 v) (s.sp - 1#16) (highByte v) (s.sp - 2#16) (lowByte v) := by
  obtain ⟨h1, h2, h3⟩ :=
    State.write8_write8_took hu (s.sp - 1#16) (s.sp - 2#16) (highByte v) (lowByte v) (by bv_omega) h
  refine ⟨?_, h2, h3⟩
  unfold State.push16
  rw [h1]

/-- The store of EX (SP),v (R194), behind its two reads. -/
theorem State.replaceTop_took {s : State} (hu : s.Undisturbed) (v : Word) (h : s.mem.wf = true) :
    TookTwo (s.afterRead16 s.sp) (s.replaceTop v) (s.sp + 1#16) (highByte v) s.sp (lowByte v) :=
  State.write8_write8_took ((hu.afterRead8 _).afterRead8 _) _ _ _ _ (by bv_omega) (State.afterRead16_wf _ _ h)

/-- A result written back to memory with its flags (R66). -/
theorem State.writeF_took {s : State} (hu : s.Undisturbed) (a : Word) (p : Byte × Flags) (h : s.mem.wf = true) :
    TookByte (s.setFlags p.2) (s.writeF a p) a p.1 := by
  obtain ⟨h1, h2, h3⟩ := State.write8_took hu a p.1 h
  refine ⟨?_, h2, h3⟩
  unfold State.writeF
  rw [h1]
  rfl

@[simp] theorem State.transferStep_bc (s : State) (up : Bool) : (s.transferStep up).bc = s.bc - 1#16 := by
  unfold State.transferStep State.setFlags
  exact highByte_append_lowByte _

@[simp] theorem State.searchStep_bc (s : State) (up : Bool) : (s.searchStep up).bc = s.bc - 1#16 := by
  unfold State.searchStep State.setFlags
  exact highByte_append_lowByte _

/-! ### The fetch -/

/-- One byte fetched from RAM or ROM, when no other bus master acts meanwhile (R31, R33). -/
theorem State.fetchByte_plain {s : State} (hu : s.Undisturbed) (hk : s.isPlain s.pc) (o : Bool) :
    s.fetchByte o =
      { s with
        pc := s.pc + 1#16
        r := if o then refreshed 1 s.r else s.r
        devices := if o then s.devices.map Device.m1 else s.devices
        busLog := (if o then .opFetch s.pc (s.byteAt s.pc) else .memRead s.pc (s.byteAt s.pc)) :: s.busLog } := by
  unfold State.fetchByte
  rw [State.afterFetch_eq hu, State.afterRead8_eq hu, State.answerMem_plain hk, State.read8_plain hk]
  cases o <;> rfl

end Sys2Proof.Machine
end

