-- ==== Sys2Proof/Laws/Interrupts.lean ====
section
/-! SUPPORT. What an instruction boundary and a step can do, said once: the inversion lemmas of `State.boundary` and
`step`, and the fields that taking an interrupt, a bus grant and the arrival of an input leave alone. -/

namespace Sys2Proof.Machine

/-! ### Taking an interrupt -/

section Entry
variable (s : State) (k : InterruptKind) (b : Byte)

@[simp] theorem State.enterInterrupt_regs : (s.enterInterrupt k b).regs = s.regs := by
  cases k <;> simp [State.enterInterrupt]
@[simp] theorem State.enterInterrupt_alt : (s.enterInterrupt k b).alt = s.alt := by
  cases k <;> simp [State.enterInterrupt]
@[simp] theorem State.enterInterrupt_ix : (s.enterInterrupt k b).ix = s.ix := by
  cases k <;> simp [State.enterInterrupt]
@[simp] theorem State.enterInterrupt_iy : (s.enterInterrupt k b).iy = s.iy := by
  cases k <;> simp [State.enterInterrupt]
@[simp] theorem State.enterInterrupt_sp : (s.enterInterrupt k b).sp = s.sp := by
  cases k <;> simp [State.enterInterrupt]
@[simp] theorem State.enterInterrupt_pc : (s.enterInterrupt k b).pc = s.pc := by
  cases k <;> simp [State.enterInterrupt]
@[simp] theorem State.enterInterrupt_i : (s.enterInterrupt k b).i = s.i := by
  cases k <;> simp [State.enterInterrupt]
@[simp] theorem State.enterInterrupt_r : (s.enterInterrupt k b).r = refreshed 1 s.r := by
  cases k <;> simp [State.enterInterrupt]
@[simp] theorem State.enterInterrupt_im : (s.enterInterrupt k b).im = s.im := by
  cases k <;> simp [State.enterInterrupt]
@[simp] theorem State.enterInterrupt_halted : (s.enterInterrupt k b).halted = false := by
  cases k <;> simp [State.enterInterrupt]
@[simp] theorem State.enterInterrupt_iff1 : (s.enterInterrupt k b).iff1 = false := by
  cases k <;> simp [State.enterInterrupt]
@[simp] theorem State.enterInterrupt_noSample : (s.enterInterrupt k b).noSample = s.noSample := by
  cases k <;> simp [State.enterInterrupt]
@[simp] theorem State.enterInterrupt_busGranted : (s.enterInterrupt k b).busGranted = s.busGranted := by
  cases k <;> simp [State.enterInterrupt]
@[simp] theorem State.enterInterrupt_memMap : (s.enterInterrupt k b).memMap = s.memMap := by
  cases k <;> simp [State.enterInterrupt]
@[simp] theorem State.enterInterrupt_params : (s.enterInterrupt k b).params = s.params := by
  cases k <;> simp [State.enterInterrupt]
@[simp] theorem State.enterInterrupt_inputs : (s.enterInterrupt k b).inputs = s.inputs := by
  cases k <;> simp [State.enterInterrupt]
@[simp] theorem State.enterInterrupt_tStates : (s.enterInterrupt k b).tStates = s.tStates := by
  cases k <;> simp [State.enterInterrupt]
@[simp] theorem State.enterInterrupt_iff2_nmi : (s.enterInterrupt .nonMaskable b).iff2 = s.iff2 := by
  simp [State.enterInterrupt]
@[simp] theorem State.enterInterrupt_iff2_int : (s.enterInterrupt .maskable b).iff2 = false := by
  simp [State.enterInterrupt]
@[simp] theorem State.enterInterrupt_nmi : (s.enterInterrupt .nonMaskable b).nmiPending = false := by
  simp [State.enterInterrupt]
@[simp] theorem State.enterInterrupt_nmi_int : (s.enterInterrupt .maskable b).nmiPending = s.nmiPending := by
  simp [State.enterInterrupt]

theorem State.enterInterrupt_wf (h : s.mem.wf = true) : (s.enterInterrupt k b).mem.wf = true := by
  cases k
  · exact State.afterFetch_wf _ h
  · exact State.afterIntAck_wf _ b h

variable {s}

theorem State.Undisturbed.enterInterrupt (h : s.Undisturbed) : (s.enterInterrupt k b).Undisturbed := by
  cases k
  · exact State.Undisturbed.afterFetch (s := { s with halted := false, iff1 := false, nmiPending := false }) h
  · have h' : State.Undisturbed { s with halted := false, iff1 := false, iff2 := false } := h
    unfold State.enterInterrupt
    dsimp only
    rw [State.afterIntAck_eq h']
    exact h'.congr (by simp) (by simp)

/-- The first part of taking an interrupt leaves memory's contents alone, if no other bus master acts meanwhile. -/
theorem State.enterInterrupt_mem (h : s.Undisturbed) : (s.enterInterrupt k b).mem = s.mem := by
  cases k
  · have h' : State.Undisturbed { s with halted := false, iff1 := false, nmiPending := false } := h
    unfold State.enterInterrupt
    dsimp only
    rw [State.afterFetch_eq h']
    simp
  · have h' : State.Undisturbed { s with halted := false, iff1 := false, iff2 := false } := h
    unfold State.enterInterrupt
    dsimp only
    rw [State.afterIntAck_eq h']
    simp

/-- A call pushes PC and jumps (R423, R429). -/
theorem State.callTo_took (h : s.Undisturbed) (target : Word) (hm : s.mem.wf = true) :
    TookTwo { s with sp := s.sp - 2#16, pc := target } (s.callTo target) (s.sp - 1#16) (highByte s.pc) (s.sp - 2#16)
      (lowByte s.pc) := by
  obtain ⟨h1, h2, h3⟩ := State.push16_took h s.pc hm
  refine ⟨?_, h2, h3⟩
  unfold State.callTo
  rw [h1]

end Entry

theorem State.callTo_wf (s : State) (target : Word) (h : s.mem.wf = true) : (s.callTo target).mem.wf = true :=
  State.push16_wf _ _ h

theorem State.callVector_wf (s : State) (v : Byte) (h : s.mem.wf = true) : (s.callVector v).mem.wf = true :=
  State.afterRead16_wf _ _ (State.push16_wf _ _ h)

/-! ### Accepting an interrupt -/

theorem State.acceptNmi_eq (s : State) :
    s.acceptNmi = ((s.enterInterrupt .nonMaskable 0#8).callTo nmiEntry).elapse nmiCost := rfl

/-- What the mode 0 response can be (R506): a restart, or the instruction that MODE0_INSTR allows. -/
theorem State.respondMode0_cases {s t : State} {v : Byte} (h : s.respondMode0 v = .next t) :
    (isRestart v = true ∧ t = (s.callTo (mode0Entry v)).elapse restartCost) ∨
    (isRestart v = false ∧ v ∈ s.params.mode0Extra ∧ ∃ i rest u, decode [v] = .ok (i, rest) ∧ exec i s = .next u ∧
      t = State.elapse { u with noSample := false } (instrCost i s + ackWaits)) := by
  unfold State.respondMode0 at h
  split at h
  · next hv => cases h; exact .inl ⟨hv, rfl⟩
  · next hv =>
    split at h
    · next hm =>
      split at h
      · next i rest hd =>
        split at h
        · next u hu => cases h; exact .inr ⟨by simpa using hv, hm, i, rest, u, hd, hu, rfl⟩
        · cases h
        · cases h
      · cases h
    · cases h

/-- What accepting a maskable interrupt can be (R502 to R510). -/
theorem State.acceptInt_cases {s t : State} {b : Byte} (h : s.acceptInt b = .next t) :
    (s.im = .mode0 ∧ (s.enterInterrupt .maskable b).respondMode0 (s.ackByte b) = .next t) ∨
    (s.im = .mode1 ∧ t = ((s.enterInterrupt .maskable b).callTo mode1Entry).elapse restartCost) ∨
    (s.im = .mode2 ∧ t = ((s.enterInterrupt .maskable b).callVector (s.ackByte b)).elapse mode2Cost) := by
  unfold State.acceptInt at h
  dsimp only at h
  split at h
  · next hi => exact .inl ⟨hi, h⟩
  · next hi => cases h; exact .inr (.inl ⟨hi, rfl⟩)
  · next hi => cases h; exact .inr (.inr ⟨hi, rfl⟩)

/-- Without a RESET in it, a response leaves what it leaves. -/
theorem State.accepted_eq {s : State} {b : BoundaryInput} (u : State) (h : b.resetsResponse = false) :
    s.accepted b u = u := by
  simp [State.accepted, h]

/-! ### The boundary -/

/-- The boundary when there is neither RESET nor a bus request (R488). -/
theorem State.boundary_eq_sample {s : State} (hr : s.nextInput.reset = false) (hb : s.nextInput.busreq = false) :
    s.boundary =
      State.sampleInterrupts { s.arrive s.nextInput with busGranted := false } s.nextInput := by
  simp only [State.boundary, State.decideBoundary, hr, hb, if_false, Bool.false_eq_true]

/-- Nothing is accepted under the inhibition, nor where neither interrupt asks (R488, R590). -/
theorem State.sampleInterrupts_none {s : State} {b : BoundaryInput}
    (h : s.noSample = true ∨ (s.nmiPending = false ∧ (s.iff1 = false ∨ s.intActive b = false))) :
    s.sampleInterrupts b = .next { s with noSample := false } := by
  unfold State.sampleInterrupts
  cases hn : s.noSample
  · simp only [hn, Bool.false_eq_true, false_or] at h
    have hi : (s.iff1 && s.intActive b) = false := by rcases h.2 with h | h <;> simp [h]
    simp only [h.1, hi, if_false, Bool.false_eq_true]
    cases s; simp_all
  · rfl

/-- A latched NMI is accepted (R490). -/
theorem State.sampleInterrupts_nmi {s : State} {b : BoundaryInput} (hn : s.noSample = false)
    (hp : s.nmiPending = true) : s.sampleInterrupts b = .next (s.accepted b s.acceptNmi) := by
  simp [State.sampleInterrupts, hn, hp]

/-- An active and enabled INT is accepted (R500, R502). -/
theorem State.sampleInterrupts_int {s : State} {b : BoundaryInput} (hn : s.noSample = false)
    (hp : s.nmiPending = false) (hi : s.iff1 = true) (ha : s.intActive b = true) (hr : b.resetsResponse = false) :
    s.sampleInterrupts b = s.acceptInt b.busByte := by
  simp only [State.sampleInterrupts, hn, hp, hi, ha, Bool.and_self, if_true, if_false, Bool.false_eq_true,
    State.accepted_eq _ hr]
  cases s.acceptInt b.busByte <;> rfl

/-- What sampling the interrupts can do (R488, R590). -/
theorem State.sampleInterrupts_cases {s t : State} {b : BoundaryInput} (h : s.sampleInterrupts b = .next t) :
    (s.noSample = true ∧ t = { s with noSample := false }) ∨
    (s.noSample = false ∧ s.nmiPending = true ∧ t = s.accepted b s.acceptNmi) ∨
    (s.noSample = false ∧ s.nmiPending = false ∧ s.iff1 = true ∧ s.intActive b = true ∧
      ∃ u, s.acceptInt b.busByte = .next u ∧ t = s.accepted b u) ∨
    (s.noSample = false ∧ s.nmiPending = false ∧ (s.iff1 && s.intActive b) = false ∧ t = s) := by
  unfold State.sampleInterrupts at h
  split at h
  · next hn => cases h; exact .inl ⟨hn, rfl⟩
  · next hn =>
    have hn' : s.noSample = false := by simpa using hn
    split at h
    · next hp => cases h; exact .inr (.inl ⟨hn', hp, rfl⟩)
    · next hp =>
      have hp' : s.nmiPending = false := by simpa using hp
      split at h
      · next hi =>
        have hi' : s.iff1 = true ∧ s.intActive b = true := by simpa using hi
        split at h
        · next u hu => cases h; exact .inr (.inr (.inl ⟨hn', hp', hi'.1, hi'.2, u, hu, rfl⟩))
        · cases h
        · cases h
      · next hi => cases h; exact .inr (.inr (.inr ⟨hn', hp', by simpa using hi, rfl⟩))

/-- What a boundary can do (R488): reset, a bus grant, or the sampling of the interrupts. -/
theorem State.boundary_cases {s t : State} (h : s.boundary = .next t) :
    (s.nextInput.reset = true ∧ t = (s.arrive s.nextInput).hardReset.elapse resetCost) ∨
    (s.nextInput.reset = false ∧ s.nextInput.busreq = true ∧
      t = (s.arrive s.nextInput).grantBus s.nextInput.dma) ∨
    (s.nextInput.reset = false ∧ s.nextInput.busreq = false ∧
      State.sampleInterrupts { s.arrive s.nextInput with busGranted := false } s.nextInput = .next t) := by
  unfold State.boundary State.decideBoundary at h
  split at h
  · next hr => cases h; exact .inl ⟨hr, rfl⟩
  · next hr =>
    have hr' : s.nextInput.reset = false := by simpa using hr
    split at h
    · next hb => cases h; exact .inr (.inl ⟨hr', hb, rfl⟩)
    · next hb => exact .inr (.inr ⟨hr', by simpa using hb, h⟩)

/-! ### The step -/

/-- Without a RESET that abandons it, an instruction leaves what it leaves. -/
theorem State.cutShort_eq {s : State} (u : State) (h : (s.nextInput.reset && s.nextInput.abandons) = false) :
    s.cutShort u = u := by
  simp [State.cutShort, h]

/-- What an instruction leaves: u, or with RESET the abandoned u. -/
theorem State.cutShort_cases (s u : State) :
    s.cutShort u = u ∨ (s.nextInput.reset = true ∧ s.nextInput.abandons = true ∧ s.cutShort u = s.abandoned u) := by
  unfold State.cutShort
  split
  · next h =>
    have h' : s.nextInput.reset = true ∧ s.nextInput.abandons = true := by simpa using h
    exact .inr ⟨h'.1, h'.2, rfl⟩
  · exact .inl rfl

/-- The memory an abandoned instruction leaves: canonical, each byte old or new (R570). -/
theorem State.abandoned_memory {s u : State} (hs : s.mem.wf = true) (hu : u.mem.wf = true) :
    (s.abandoned u).mem.wf = true ∧
      ∀ a, (s.abandoned u).mem.read a = s.mem.read a ∨ (s.abandoned u).mem.read a = u.mem.read a :=
  Memory.mixed_spec (fun a => Config.freeBit (u.draws + a)) s.mem u.mem hs fun c hc =>
    (List.mem_append.1 hc).elim (Memory.lt_of_wf _ hs c) (Memory.lt_of_wf _ hu c)

theorem boundaryAfter_cases {n : Nat} {s : State} {r : Host.Outcome State Fault Refusal} {t : State}
    (h : boundaryAfter n s r = .next t) : ∃ u, r = .next u ∧ ((s.cutShort u).elapse n).boundary = .next t := by
  cases r with
  | next u => exact ⟨u, rfl, h⟩
  | fault e => cases h
  | refused e => cases h

/-- What a step that completes can have done. -/
theorem step_cases {s t : State} (h : step s = .next t) :
    (s.busGranted = true ∧ s.boundary = .next t) ∨
    (s.busGranted = false ∧ s.halted = true ∧ (s.afterFetch.elapse haltCost).boundary = .next t) ∨
    (s.busGranted = false ∧ s.halted = false ∧ ∃ i u v, s.fetch = (.ok i, u) ∧ exec i u = .next v ∧
      ((u.cutShort v).elapse (instrCost i u)).boundary = .next t) := by
  unfold step at h
  split at h
  · next hb => exact .inl ⟨hb, h⟩
  · next hb =>
    have hb' : s.busGranted = false := by simpa using hb
    split at h
    · next hh => exact .inr (.inl ⟨hb', hh, h⟩)
    · next hh =>
      refine .inr (.inr ⟨hb', by simpa using hh, ?_⟩)
      unfold stepInstruction at h
      split at h
      · next i u hf =>
        obtain ⟨v, hv, ht⟩ := boundaryAfter_cases h
        exact ⟨i, u, v, hf, hv, ht⟩
      · cases h

/-- Fetching keeps what fetching one byte keeps. -/
theorem State.fetchFrom_keeps {P : State → Prop} (hP : ∀ s o, P s → P (s.fetchByte o)) (n : Nat) (got : List Byte)
    (s : State) (h : P s) : P (s.fetchFrom n got).2 := by
  induction n generalizing got s with
  | zero => exact h
  | succ n ih =>
    unfold State.fetchFrom
    dsimp only
    split
    · exact hP s _ h
    · exact ih _ _ (hP s _ h)
    · exact hP s _ h

theorem State.fetchByte_wf (s : State) (o : Bool) (h : s.mem.wf = true) : (s.fetchByte o).mem.wf = true := by
  cases o
  · exact State.afterRead8_wf s _ h
  · exact State.afterFetch_wf s h

end Sys2Proof.Machine
end

