-- ==== Sys2Proof/Laws/Devices.lean ====
section
/-! SUPPORT. The devices keep the form their rules give their registers (`Device.ok`), whatever happens to them; and
the daisy chain's choice of a slot, characterised. -/

namespace Sys2Proof.Machine

/-! ### Prescalers stay below 256 -/

theorem CtcChannel.factor_le (c : CtcChannel) : c.factor ≤ 256 := by
  unfold CtcChannel.factor; split <;> omega

@[simp] theorem CtcChannel.count_prescale (c : CtcChannel) : c.count.prescale = c.prescale := by
  unfold CtcChannel.count; split <;> rfl

@[simp] theorem CtcChannel.count_run (c : CtcChannel) : c.count.run = c.run := by
  unfold CtcChannel.count; split <;> rfl

@[simp] theorem CtcChannel.count_control (c : CtcChannel) : c.count.control = c.control := by
  unfold CtcChannel.count; split <;> rfl

@[simp] theorem CtcChannel.count_timeConstant (c : CtcChannel) : c.count.timeConstant = c.timeConstant := by
  unfold CtcChannel.count; split <;> rfl

theorem CtcChannel.tick_prescale (c : CtcChannel) (h : c.prescale < 256) : c.tick.prescale < 256 := by
  have hf := c.factor_le
  unfold CtcChannel.tick
  split
  · split
    · dsimp only; omega
    · simp
  · exact h

theorem CtcChannel.activeEdge_prescale (c : CtcChannel) (h : c.prescale < 256) : c.activeEdge.prescale < 256 := by
  unfold CtcChannel.activeEdge
  split
  · exact h
  · split <;> simp [h]
  · split <;> simp [h]

theorem CtcChannel.clkTrg_prescale (r : Bool) (c : CtcChannel) (h : c.prescale < 256) :
    (c.clkTrg r).prescale < 256 := by
  unfold CtcChannel.clkTrg
  split
  · exact c.activeEdge_prescale h
  · exact h

theorem CtcChannel.write_prescale (v : Byte) (c : CtcChannel) (h : c.prescale < 256) : (c.write v).prescale < 256 := by
  unfold CtcChannel.write
  split
  · unfold CtcChannel.loadConstant
    dsimp only
    split <;> simp [h]
  · split
    · unfold CtcChannel.setControl
      dsimp only
      split
      · exact h
      · split
        · exact h
        · exact CtcChannel.activeEdge_prescale _ h
    · exact h

/-! ### The chips -/

theorem Ctc.ok_iff (c : Ctc) : c.ok = true ↔
    c.vector &&& 0x07#8 = 0#8 ∧ c.ch0.prescale < 256 ∧ c.ch1.prescale < 256 ∧ c.ch2.prescale < 256 ∧
      c.ch3.prescale < 256 := by
  simp [Ctc.ok, and_assoc]

theorem Ctc.ok_setChannel (k : BitVec 2) (x : CtcChannel) (c : Ctc) (h : c.ok = true) (hx : x.prescale < 256) :
    (c.setChannel k x).ok = true := by
  rw [Ctc.ok_iff] at h ⊢
  obtain ⟨hv, h0, h1, h2, h3⟩ := h
  unfold Ctc.setChannel
  split
  · exact ⟨hv, hx, h1, h2, h3⟩
  · exact ⟨hv, h0, hx, h2, h3⟩
  · exact ⟨hv, h0, h1, hx, h3⟩
  · exact ⟨hv, h0, h1, h2, hx⟩

theorem Ctc.channel_prescale (k : BitVec 2) (c : Ctc) (h : c.ok = true) : (c.channel k).prescale < 256 := by
  obtain ⟨_, h0, h1, h2, h3⟩ := (Ctc.ok_iff c).1 h
  unfold Ctc.channel
  split <;> assumption

theorem maskedVector_low (v : Byte) : v &&& 0xF8#8 &&& 0x07#8 = 0#8 := by
  rw [BitVec.and_assoc]; simp

/-- What a pulse does to the chip, through any wiring, keeps the prescalers below 256 if what it does to a channel
does. -/
theorem Ctc.ok_drive (n : Nat) (k : BitVec 2) (f : CtcChannel → CtcChannel)
    (hf : ∀ x : CtcChannel, x.prescale < 256 → (f x).prescale < 256) (c : Ctc) (h : c.ok = true) :
    (c.drive n k f).ok = true := by
  induction n generalizing k f c with
  | zero => exact h
  | succ n ih =>
    have h1 : (c.setChannel k (f (c.channel k))).ok = true :=
      Ctc.ok_setChannel _ _ _ h (hf _ (Ctc.channel_prescale _ _ h))
    unfold Ctc.drive
    dsimp only
    split
    · exact h1
    · generalize [0#2, 1#2, 2#2, 3#2] = l
      generalize c.setChannel k (f (c.channel k)) = d at h1
      induction l generalizing d with
      | nil => exact h1
      | cons j t it =>
        refine it _ ?_
        dsimp only
        split
        · exact ih j _ CtcChannel.activeEdge_prescale d h1
        · exact h1

theorem Ctc.ok_update (k : BitVec 2) (f : CtcChannel → CtcChannel)
    (hf : ∀ x : CtcChannel, x.prescale < 256 → (f x).prescale < 256) (c : Ctc) (h : c.ok = true) :
    (c.update k f).ok = true :=
  Ctc.ok_drive 5 k f hf c h

theorem Ctc.ok_write (k : BitVec 2) (v : Byte) (c : Ctc) (h : c.ok = true) : (c.write k v).ok = true := by
  unfold Ctc.write
  split
  · rw [Ctc.ok_iff] at h ⊢
    exact ⟨maskedVector_low v, h.2⟩
  · exact Ctc.ok_update _ _ (CtcChannel.write_prescale v) _ h

theorem Ctc.ok_tick (c : Ctc) (h : c.ok = true) : c.tick.ok = true := by
  have hu := fun k => Ctc.ok_update k _ CtcChannel.tick_prescale
  exact hu _ _ (hu _ _ (hu _ _ (hu _ _ h)))

theorem Ctc.ok_clock (t : Nat) (c : Ctc) (h : c.ok = true) : (c.clock t).ok = true := by
  induction t generalizing c with
  | zero => exact h
  | succ t ih => exact ih _ (Ctc.ok_tick c h)

theorem Ctc.channel_setChannel (k j : BitVec 2) (x : CtcChannel) (c : Ctc) :
    (c.setChannel k x).channel j = if j = k then x else c.channel j := by
  have h : ∀ k : BitVec 2, k = 0#2 ∨ k = 1#2 ∨ k = 2#2 ∨ k = 3#2 := by decide
  rcases h k with rfl | rfl | rfl | rfl <;> rcases h j with rfl | rfl | rfl | rfl <;> rfl

/-- Counting does not rewire a channel. -/
@[simp] theorem CtcChannel.count_source (c : CtcChannel) : c.count.source = c.source := by
  unfold CtcChannel.count; split <;> rfl

@[simp] theorem CtcChannel.activeEdge_source (c : CtcChannel) : c.activeEdge.source = c.source := by
  unfold CtcChannel.activeEdge
  split
  · rfl
  · split <;> simp
  · split <;> simp

theorem Ctc.setChannel_source {f : CtcChannel → CtcChannel} (hf : ∀ x, (f x).source = x.source) (k i : BitVec 2)
    (c : Ctc) : ((c.setChannel k (f (c.channel k))).channel i).source = (c.channel i).source := by
  rw [Ctc.channel_setChannel]
  split
  · next h => rw [h, hf]
  · rfl

/-- A pulse does not rewire the chip. -/
theorem Ctc.drive_source (n : Nat) {f : CtcChannel → CtcChannel} (hf : ∀ x, (f x).source = x.source) (k i : BitVec 2)
    (c : Ctc) : ((c.drive n k f).channel i).source = (c.channel i).source := by
  induction n generalizing f k c with
  | zero => rfl
  | succ n ih =>
    unfold Ctc.drive
    dsimp only
    split
    · exact Ctc.setChannel_source hf k i c
    · rw [← Ctc.setChannel_source hf k i c]
      generalize c.setChannel k (f (c.channel k)) = d
      generalize [0#2, 1#2, 2#2, 3#2] = l
      induction l generalizing d with
      | nil => rfl
      | cons j t it =>
        rw [List.foldl_cons, it]
        split
        · exact ih CtcChannel.activeEdge_source j d
        · rfl

/-- Where the wiring runs in no circle, following it deeper than it reaches changes nothing. -/
theorem Ctc.drive_depth {depth : BitVec 2 → Nat} (h4 : ∀ i, depth i < 4) (n m : Nat) {f : CtcChannel → CtcChannel}
    (hf : ∀ x, (f x).source = x.source) (k : BitVec 2) (c : Ctc)
    (hd : ∀ i j, j ≠ 3#2 → (c.channel i).source = some j → depth j < depth i)
    (hn : 4 ≤ n + depth k) (hm : 4 ≤ m + depth k) : c.drive n k f = c.drive m k f := by
  induction n generalizing m f k c with
  | zero => have := h4 k; omega
  | succ n ih =>
    cases m with
    | zero => have := h4 k; omega
    | succ m =>
      unfold Ctc.drive
      dsimp only
      split
      · rfl
      · next hk =>
        have hk3 : k ≠ 3#2 := fun e => hk (.inl e)
        have hd' : ∀ i j, j ≠ 3#2 → ((c.setChannel k (f (c.channel k))).channel i).source = some j →
            depth j < depth i :=
          fun i j h => by rw [Ctc.setChannel_source hf]; exact hd i j h
        generalize c.setChannel k (f (c.channel k)) = d at hd'
        generalize [0#2, 1#2, 2#2, 3#2] = l
        induction l generalizing d with
        | nil => rfl
        | cons j t it =>
          rw [List.foldl_cons, List.foldl_cons]
          split
          · next hs =>
            have := hd' j k hk3 hs
            rw [ih m CtcChannel.activeEdge_source j d hd' (by omega) (by omega)]
            refine it _ fun i j' h => ?_
            rw [Ctc.drive_source m CtcChannel.activeEdge_source]; exact hd' i j' h
          · exact it d hd'

/-- With no input wired to its output, what happens to a channel happens to it alone (R561), however deep the chain. -/
theorem Ctc.drive_of_unwired (n : Nat) (k : BitVec 2) (f : CtcChannel → CtcChannel) (c : Ctc)
    (h : ∀ j, ((c.setChannel k (f (c.channel k))).channel j).source ≠ some k) :
    c.drive (n + 1) k f = c.setChannel k (f (c.channel k)) := by
  unfold Ctc.drive
  dsimp only
  split
  · rfl
  · simp [h]

theorem Ctc.update_of_unwired (k : BitVec 2) (f : CtcChannel → CtcChannel) (c : Ctc)
    (h : ∀ j, ((c.setChannel k (f (c.channel k))).channel j).source ≠ some k) :
    c.update k f = c.setChannel k (f (c.channel k)) :=
  Ctc.drive_of_unwired 4 k f c h

theorem Ctc.ok_hardReset (draw : Nat → Byte) (c : Ctc) : (c.hardReset draw).ok = true := by
  rw [Ctc.ok_iff]
  exact ⟨maskedVector_low _, Nat.zero_lt_succ 255, Nat.zero_lt_succ 255, Nat.zero_lt_succ 255, Nat.zero_lt_succ 255⟩

theorem PioPort.testLines_ok (b : Bool) (p : PioPort) (h : p.ok = true) : (p.testLines b).ok = true := by
  unfold PioPort.testLines; split <;> exact h

theorem PioPort.takeControl_ok (v : Byte) (p : PioPort) (h : p.ok = true) : (p.takeControl v).ok = true := by
  unfold PioPort.takeControl
  split
  · exact h
  · exact h
  · split
    · next hv => simp only [PioPort.ok]; rw [hv]; rfl
    · split
      · exact h
      · unfold PioPort.setInterruptControl PioPort.setEnable
        dsimp only
        split <;> split <;> exact h
      · unfold PioPort.setEnable
        split <;> exact h
      · exact h

theorem PioPort.writeControl_ok (b : Bool) (v : Byte) (p : PioPort) (h : p.ok = true) :
    (p.writeControl b v).ok = true := by
  unfold PioPort.writeControl
  split
  · exact PioPort.testLines_ok b _ (PioPort.takeControl_ok v p h)
  · exact PioPort.takeControl_ok v p h

theorem PioPort.drawn_ok (n k : Nat) (p : PioPort) : (p.drawn n k).ok = true := by
  simp [PioPort.ok, PioPort.drawn]

theorem PioPort.m1_ok (b : Bool) (p : PioPort) (h : p.ok = true) : (p.m1 b).ok = true := by
  unfold PioPort.m1
  split
  · dsimp only
    split
    · exact h
    · exact PioPort.testLines_ok b _ h
  · exact h

theorem PioPort.strobe_ok (v : Byte) (p : PioPort) (h : p.ok = true) : (p.strobe v).ok = true := by
  unfold PioPort.strobe; split <;> exact h

theorem Device.ok_pio (p : Pio) : (Device.pio p).ok = true ↔ p.portA.ok = true ∧ p.portB.ok = true := by
  simp [Device.ok]

theorem Pio.ok_controlA (v : Byte) (p : Pio) (h : (Device.pio p).ok = true) : (Device.pio (p.controlA v)).ok = true := by
  obtain ⟨ha, hb⟩ := (Device.ok_pio p).1 h
  unfold Pio.controlA
  dsimp only
  split
  · exact (Device.ok_pio _).2 ⟨PioPort.writeControl_ok _ _ _ ha, PioPort.testLines_ok _ _ hb⟩
  · exact (Device.ok_pio _).2 ⟨PioPort.writeControl_ok _ _ _ ha, hb⟩

/-! ### Every operation on a device keeps `Device.ok` -/

theorem Device.ok_clock (t : Nat) (d : Device) (h : d.ok = true) : (d.clock t).ok = true := by
  cases d with
  | ctc c => exact Ctc.ok_clock t c h
  | pio p => exact h

theorem Device.ok_m1 (d : Device) (h : d.ok = true) : d.m1.ok = true := by
  cases d with
  | ctc c => exact h
  | pio p =>
    rw [Device.ok_pio] at h
    exact (Device.ok_pio _).2 ⟨PioPort.m1_ok _ _ h.1, PioPort.m1_ok _ _ h.2⟩

theorem Device.ok_write (lo v : Byte) (d : Device) (h : d.ok = true) : (d.write lo v).ok = true := by
  unfold Device.write
  split
  · split
    · exact Ctc.ok_write _ _ _ h
    · next p _ =>
      obtain ⟨ha, hb⟩ := (Device.ok_pio p).1 h
      unfold Pio.write
      split
      · exact (Device.ok_pio _).2 ⟨ha, hb⟩
      · exact (Device.ok_pio _).2 ⟨ha, hb⟩
      · exact Pio.ok_controlA v p h
      · exact (Device.ok_pio _).2 ⟨ha, PioPort.writeControl_ok _ _ _ hb⟩
  · exact h

theorem Device.ok_afterRead (lo : Byte) (d : Device) (h : d.ok = true) : (d.afterRead lo).ok = true := by
  unfold Device.afterRead
  split
  · exact h
  · rw [Device.ok_pio] at h
    unfold Pio.afterRead
    split
    · split <;> exact (Device.ok_pio _).2 h
    · exact (Device.ok_pio _).2 h
    · exact (Device.ok_pio _).2 h

theorem Device.ok_setSlot (k : Nat) (a b : Bool) (d : Device) (h : d.ok = true) : (d.setSlot k a b).ok = true := by
  unfold Device.setSlot
  split
  · exact Ctc.ok_setChannel _ _ _ h (Ctc.channel_prescale _ _ h)
  · rw [Device.ok_pio] at h
    split <;> exact (Device.ok_pio _).2 h

theorem Device.ok_event (n : Nat) (e : DeviceEvent) (d : Device) (h : d.ok = true) : (d.event n e).ok = true := by
  unfold Device.event
  split
  · exact Ctc.ok_update _ _ (CtcChannel.clkTrg_prescale _) _ h
  · rw [Device.ok_pio] at h
    exact (Device.ok_pio _).2 ⟨PioPort.strobe_ok _ _ h.1, h.2⟩
  · rw [Device.ok_pio] at h
    unfold Pio.strobeB
    split
    · exact (Device.ok_pio _).2 h
    · exact (Device.ok_pio _).2 ⟨h.1, PioPort.strobe_ok _ _ h.2⟩
  · rw [Device.ok_pio] at h
    unfold Pio.setLines
    split
    · exact (Device.ok_pio _).2 ⟨h.1, PioPort.testLines_ok _ _ h.2⟩
    · exact (Device.ok_pio _).2 ⟨PioPort.testLines_ok _ _ h.1, h.2⟩
  · exact (Device.ok_pio _).2 ⟨PioPort.drawn_ok _ _ _, PioPort.drawn_ok _ _ _⟩
  · exact Ctc.ok_hardReset _ _
  · exact h

theorem Device.ok_hardReset (draw : Nat → Byte) (d : Device) (h : d.ok = true) : (d.hardReset draw).ok = true := by
  cases d with
  | ctc c =>
    unfold Device.hardReset
    dsimp only
    split
    · exact Ctc.ok_hardReset draw c
    · exact h
  | pio p => exact h

/-- All devices of a list are in the form their rules give them. -/
def DevicesOk (ds : List Device) : Prop := ∀ d ∈ ds, d.ok = true

theorem DevicesOk.map {f : Device → Device} (hf : ∀ d : Device, d.ok = true → (f d).ok = true) {ds : List Device}
    (h : DevicesOk ds) : DevicesOk (ds.map f) := by
  intro d hd
  obtain ⟨x, hx, rfl⟩ := List.mem_map.1 hd
  exact hf x (h x hx)

theorem DevicesOk.cons {d : Device} {t : List Device} : DevicesOk (d :: t) ↔ d.ok = true ∧ DevicesOk t := by
  simp [DevicesOk]

theorem DevicesOk.setChainSlot (k : Nat) (a b : Bool) {ds : List Device} (h : DevicesOk ds) :
    DevicesOk (setChainSlot k a b ds) := by
  induction ds generalizing k with
  | nil => exact h
  | cons d t ih =>
    obtain ⟨hd, ht⟩ := DevicesOk.cons.1 h
    unfold Machine.setChainSlot
    split
    · exact DevicesOk.cons.2 ⟨Device.ok_setSlot k a b d hd, ht⟩
    · exact DevicesOk.cons.2 ⟨hd, ih _ ht⟩

theorem DevicesOk.releaseSlot (k : Nat) {ds : List Device} (h : DevicesOk ds) : DevicesOk (releaseSlot k ds) := by
  unfold Machine.releaseSlot
  split
  · exact DevicesOk.setChainSlot _ _ _ h
  · exact h

theorem DevicesOk.readDevices {free lo : Byte} {ds : List Device} {p : Byte × List Device} (h : DevicesOk ds)
    (hp : readDevices free lo ds = some p) : DevicesOk p.2 := by
  induction ds generalizing p with
  | nil => cases hp
  | cons d t ih =>
    obtain ⟨hd, ht⟩ := DevicesOk.cons.1 h
    unfold Machine.readDevices at hp
    split at hp
    · cases hp
      exact DevicesOk.cons.2 ⟨Device.ok_afterRead lo d hd, ht⟩
    · obtain ⟨q, hq, rfl⟩ := Option.map_eq_some_iff.1 hp
      exact DevicesOk.cons.2 ⟨hd, ih ht hq⟩

theorem DevicesOk.resetDevices (draw : Nat → Byte) {ds : List Device} (h : DevicesOk ds) :
    DevicesOk (resetDevices draw ds) := by
  induction ds generalizing draw with
  | nil => exact h
  | cons d t ih =>
    obtain ⟨hd, ht⟩ := DevicesOk.cons.1 h
    exact DevicesOk.cons.2 ⟨Device.ok_hardReset draw d hd, ih _ ht⟩

theorem DevicesOk.applyEvent (e : DeviceEvent) {s : State} (h : DevicesOk s.devices) :
    DevicesOk (s.applyEvent e).devices := by
  intro d hd
  unfold State.applyEvent at hd
  obtain ⟨n, hn, rfl⟩ := List.getElem_of_mem hd
  rw [List.getElem_modify]
  split
  · exact Device.ok_event _ e _ (h _ (List.getElem_mem _))
  · exact h _ (List.getElem_mem _)

theorem DevicesOk.deviceEvents (es : List DeviceEvent) {s : State} (h : DevicesOk s.devices) :
    DevicesOk (s.deviceEvents es).devices := by
  unfold State.deviceEvents
  induction es generalizing s with
  | nil => exact h
  | cons e t ih => exact ih (DevicesOk.applyEvent e h)

/-- The devices after an I/O read. -/
theorem DevicesOk.ioReply {s : State} (port : Word) (h : DevicesOk s.devices) : DevicesOk (s.ioReply port).2.1 := by
  unfold State.ioReply
  split
  · next v ds hr => exact DevicesOk.readDevices h hr
  · split <;> exact h

/-- Another bus master reaches the devices only through their ports. -/
theorem DevicesOk.dmaAccess {s : State} (x : DmaAccess) (h : DevicesOk s.devices) :
    DevicesOk (s.dmaAccess x).devices := by
  cases x with
  | memRead a => simpa [State.dmaAccess] using h
  | memWrite a v => exact h
  | ioRead p => exact DevicesOk.ioReply p h
  | ioWrite p v => exact DevicesOk.map (fun d => Device.ok_write _ v d) h

theorem DevicesOk.dma (l : List DmaAccess) {s : State} (h : DevicesOk s.devices) : DevicesOk (s.dma l).devices := by
  unfold State.dma
  induction l generalizing s with
  | nil => exact h
  | cons x t ih => exact ih (DevicesOk.dmaAccess x h)

theorem DevicesOk.endCycle {s : State} (h : DevicesOk s.devices) : DevicesOk s.endCycle.devices := by
  unfold State.endCycle
  split
  · exact DevicesOk.dma _ h
  · exact h

/-! ### The daisy chain's choice (R516 to R518) -/

/-- The requesting slot: it is pending and enabled, and every slot before it passes its IEI on. -/
theorem requester_eq_some (xs : List Slot) (k : Nat) (h : requester xs = some k) :
    ∃ x, xs[k]? = some x ∧ x.pending = true ∧ x.enabled = true ∧
      ∀ j y, j < k → xs[j]? = some y → y.passes = true := by
  induction xs generalizing k with
  | nil => cases h
  | cons x t ih =>
    unfold requester at h
    split at h
    · next hx =>
      cases h
      refine ⟨x, rfl, ?_, ?_, fun j y hj => absurd hj (Nat.not_lt_zero j)⟩ <;> simp_all
    · split at h
      · next hp =>
        obtain ⟨m, hm, rfl⟩ := Option.map_eq_some_iff.1 h
        obtain ⟨z, hz, h1, h2, h3⟩ := ih m hm
        refine ⟨z, by simpa using hz, h1, h2, fun j y hj hy => ?_⟩
        cases j with
        | zero => simp only [List.getElem?_cons_zero, Option.some.injEq] at hy; rw [← hy]; exact hp
        | succ j => exact h3 j y (by omega) (by simpa using hy)
      · cases h

/-- The slot that RETI releases is under service and none before it is. -/
theorem inService_eq_some (xs : List Slot) (k : Nat) (h : inService xs = some k) :
    ∃ x, xs[k]? = some x ∧ x.underService = true ∧ ∀ j y, j < k → xs[j]? = some y → y.underService = false := by
  induction xs generalizing k with
  | nil => cases h
  | cons x t ih =>
    unfold inService at h
    split at h
    · next hx => cases h; exact ⟨x, rfl, hx, fun j y hj => absurd hj (Nat.not_lt_zero j)⟩
    · next hx =>
      obtain ⟨m, hm, rfl⟩ := Option.map_eq_some_iff.1 h
      obtain ⟨z, hz, h1, h2⟩ := ih m hm
      refine ⟨z, by simpa using hz, h1, fun j y hj hy => ?_⟩
      cases j with
      | zero => simp only [List.getElem?_cons_zero, Option.some.injEq] at hy; rw [← hy]; simpa using hx
      | succ j => exact h2 j y (by omega) (by simpa using hy)

end Sys2Proof.Machine
end

