-- ==== Sys2Proof/Laws/Families.lean ====
section
/-! SUPPORT. The small lemmas of the operations that the meanings of one family share: what each leaves unchanged, one
lemma per field; of those that make bus cycles, what they leave unchanged of the CPU. -/

namespace Sys2Proof.Machine

variable (s : State)

/-! ### Load8 -/

@[simp] theorem State.countRDraw_regs : (s.countRDraw).regs = s.regs := rfl
@[simp] theorem State.countRDraw_alt : (s.countRDraw).alt = s.alt := rfl
@[simp] theorem State.countRDraw_ix : (s.countRDraw).ix = s.ix := rfl
@[simp] theorem State.countRDraw_iy : (s.countRDraw).iy = s.iy := rfl
@[simp] theorem State.countRDraw_sp : (s.countRDraw).sp = s.sp := rfl
@[simp] theorem State.countRDraw_pc : (s.countRDraw).pc = s.pc := rfl
@[simp] theorem State.countRDraw_i : (s.countRDraw).i = s.i := rfl
@[simp] theorem State.countRDraw_r : (s.countRDraw).r = s.r := rfl
@[simp] theorem State.countRDraw_iff1 : (s.countRDraw).iff1 = s.iff1 := rfl
@[simp] theorem State.countRDraw_iff2 : (s.countRDraw).iff2 = s.iff2 := rfl
@[simp] theorem State.countRDraw_im : (s.countRDraw).im = s.im := rfl
@[simp] theorem State.countRDraw_nmiPending : (s.countRDraw).nmiPending = s.nmiPending := rfl
@[simp] theorem State.countRDraw_noSample : (s.countRDraw).noSample = s.noSample := rfl
@[simp] theorem State.countRDraw_halted : (s.countRDraw).halted = s.halted := rfl
@[simp] theorem State.countRDraw_busGranted : (s.countRDraw).busGranted = s.busGranted := rfl
@[simp] theorem State.countRDraw_mem : (s.countRDraw).mem = s.mem := rfl
@[simp] theorem State.countRDraw_memMap : (s.countRDraw).memMap = s.memMap := rfl
@[simp] theorem State.countRDraw_params : (s.countRDraw).params = s.params := rfl
@[simp] theorem State.countRDraw_devices : (s.countRDraw).devices = s.devices := rfl
@[simp] theorem State.countRDraw_inputs : (s.countRDraw).inputs = s.inputs := rfl
@[simp] theorem State.countRDraw_ioReplies : (s.countRDraw).ioReplies = s.ioReplies := rfl
@[simp] theorem State.countRDraw_memReplies : (s.countRDraw).memReplies = s.memReplies := rfl
@[simp] theorem State.countRDraw_cycleDma : (s.countRDraw).cycleDma = s.cycleDma := rfl
@[simp] theorem State.countRDraw_busLog : (s.countRDraw).busLog = s.busLog := rfl
@[simp] theorem State.countRDraw_tStates : (s.countRDraw).tStates = s.tStates := rfl

/-! ### Load16 -/

@[simp] theorem State.setPair_alt (p : Pair) (v : Word) : (s.setPair p v).alt = s.alt := by cases p <;> rfl
@[simp] theorem State.setPair_ix (p : Pair) (v : Word) : (s.setPair p v).ix = s.ix := by cases p <;> rfl
@[simp] theorem State.setPair_iy (p : Pair) (v : Word) : (s.setPair p v).iy = s.iy := by cases p <;> rfl
@[simp] theorem State.setPair_pc (p : Pair) (v : Word) : (s.setPair p v).pc = s.pc := by cases p <;> rfl
@[simp] theorem State.setPair_i (p : Pair) (v : Word) : (s.setPair p v).i = s.i := by cases p <;> rfl
@[simp] theorem State.setPair_r (p : Pair) (v : Word) : (s.setPair p v).r = s.r := by cases p <;> rfl
@[simp] theorem State.setPair_iff1 (p : Pair) (v : Word) : (s.setPair p v).iff1 = s.iff1 := by cases p <;> rfl
@[simp] theorem State.setPair_iff2 (p : Pair) (v : Word) : (s.setPair p v).iff2 = s.iff2 := by cases p <;> rfl
@[simp] theorem State.setPair_im (p : Pair) (v : Word) : (s.setPair p v).im = s.im := by cases p <;> rfl
@[simp] theorem State.setPair_nmiPending (p : Pair) (v : Word) :
    (s.setPair p v).nmiPending = s.nmiPending := by cases p <;> rfl
@[simp] theorem State.setPair_noSample (p : Pair) (v : Word) :
    (s.setPair p v).noSample = s.noSample := by cases p <;> rfl
@[simp] theorem State.setPair_halted (p : Pair) (v : Word) : (s.setPair p v).halted = s.halted := by cases p <;> rfl
@[simp] theorem State.setPair_busGranted (p : Pair) (v : Word) :
    (s.setPair p v).busGranted = s.busGranted := by cases p <;> rfl
@[simp] theorem State.setPair_mem (p : Pair) (v : Word) : (s.setPair p v).mem = s.mem := by cases p <;> rfl
@[simp] theorem State.setPair_memMap (p : Pair) (v : Word) : (s.setPair p v).memMap = s.memMap := by cases p <;> rfl
@[simp] theorem State.setPair_params (p : Pair) (v : Word) : (s.setPair p v).params = s.params := by cases p <;> rfl
@[simp] theorem State.setPair_devices (p : Pair) (v : Word) :
    (s.setPair p v).devices = s.devices := by cases p <;> rfl
@[simp] theorem State.setPair_inputs (p : Pair) (v : Word) : (s.setPair p v).inputs = s.inputs := by cases p <;> rfl
@[simp] theorem State.setPair_ioReplies (p : Pair) (v : Word) :
    (s.setPair p v).ioReplies = s.ioReplies := by cases p <;> rfl
@[simp] theorem State.setPair_memReplies (p : Pair) (v : Word) :
    (s.setPair p v).memReplies = s.memReplies := by cases p <;> rfl
@[simp] theorem State.setPair_cycleDma (p : Pair) (v : Word) :
    (s.setPair p v).cycleDma = s.cycleDma := by cases p <;> rfl
@[simp] theorem State.setPair_busLog (p : Pair) (v : Word) : (s.setPair p v).busLog = s.busLog := by cases p <;> rfl
@[simp] theorem State.setPair_draws (p : Pair) (v : Word) : (s.setPair p v).draws = s.draws := by cases p <;> rfl
@[simp] theorem State.setPair_tStates (p : Pair) (v : Word) :
    (s.setPair p v).tStates = s.tStates := by cases p <;> rfl

@[simp] theorem State.pushQ_regs (q : PairQ) : (s.pushQ q).regs = s.regs := by cases q <;> simp [State.pushQ]
@[simp] theorem State.pushQ_alt (q : PairQ) : (s.pushQ q).alt = s.alt := by cases q <;> simp [State.pushQ]
@[simp] theorem State.pushQ_ix (q : PairQ) : (s.pushQ q).ix = s.ix := by cases q <;> simp [State.pushQ]
@[simp] theorem State.pushQ_iy (q : PairQ) : (s.pushQ q).iy = s.iy := by cases q <;> simp [State.pushQ]
@[simp] theorem State.pushQ_pc (q : PairQ) : (s.pushQ q).pc = s.pc := by cases q <;> simp [State.pushQ]
@[simp] theorem State.pushQ_i (q : PairQ) : (s.pushQ q).i = s.i := by cases q <;> simp [State.pushQ]
@[simp] theorem State.pushQ_r (q : PairQ) : (s.pushQ q).r = s.r := by cases q <;> simp [State.pushQ]
@[simp] theorem State.pushQ_iff1 (q : PairQ) : (s.pushQ q).iff1 = s.iff1 := by cases q <;> simp [State.pushQ]
@[simp] theorem State.pushQ_iff2 (q : PairQ) : (s.pushQ q).iff2 = s.iff2 := by cases q <;> simp [State.pushQ]
@[simp] theorem State.pushQ_im (q : PairQ) : (s.pushQ q).im = s.im := by cases q <;> simp [State.pushQ]
@[simp] theorem State.pushQ_nmiPending (q : PairQ) :
    (s.pushQ q).nmiPending = s.nmiPending := by cases q <;> simp [State.pushQ]
@[simp] theorem State.pushQ_noSample (q : PairQ) :
    (s.pushQ q).noSample = s.noSample := by cases q <;> simp [State.pushQ]
@[simp] theorem State.pushQ_halted (q : PairQ) : (s.pushQ q).halted = s.halted := by cases q <;> simp [State.pushQ]
@[simp] theorem State.pushQ_busGranted (q : PairQ) :
    (s.pushQ q).busGranted = s.busGranted := by cases q <;> simp [State.pushQ]
@[simp] theorem State.pushQ_memMap (q : PairQ) : (s.pushQ q).memMap = s.memMap := by cases q <;> simp [State.pushQ]
@[simp] theorem State.pushQ_params (q : PairQ) : (s.pushQ q).params = s.params := by cases q <;> simp [State.pushQ]
@[simp] theorem State.pushQ_inputs (q : PairQ) : (s.pushQ q).inputs = s.inputs := by cases q <;> simp [State.pushQ]
@[simp] theorem State.pushQ_tStates (q : PairQ) : (s.pushQ q).tStates = s.tStates := by cases q <;> simp [State.pushQ]

@[simp] theorem State.popQ_alt (q : PairQ) : (s.popQ q).alt = s.alt := by cases q <;> simp [State.popQ]
@[simp] theorem State.popQ_ix (q : PairQ) : (s.popQ q).ix = s.ix := by cases q <;> simp [State.popQ]
@[simp] theorem State.popQ_iy (q : PairQ) : (s.popQ q).iy = s.iy := by cases q <;> simp [State.popQ]
@[simp] theorem State.popQ_pc (q : PairQ) : (s.popQ q).pc = s.pc := by cases q <;> simp [State.popQ]
@[simp] theorem State.popQ_i (q : PairQ) : (s.popQ q).i = s.i := by cases q <;> simp [State.popQ]
@[simp] theorem State.popQ_r (q : PairQ) : (s.popQ q).r = s.r := by cases q <;> simp [State.popQ]
@[simp] theorem State.popQ_iff1 (q : PairQ) : (s.popQ q).iff1 = s.iff1 := by cases q <;> simp [State.popQ]
@[simp] theorem State.popQ_iff2 (q : PairQ) : (s.popQ q).iff2 = s.iff2 := by cases q <;> simp [State.popQ]
@[simp] theorem State.popQ_im (q : PairQ) : (s.popQ q).im = s.im := by cases q <;> simp [State.popQ]
@[simp] theorem State.popQ_nmiPending (q : PairQ) :
    (s.popQ q).nmiPending = s.nmiPending := by cases q <;> simp [State.popQ]
@[simp] theorem State.popQ_noSample (q : PairQ) : (s.popQ q).noSample = s.noSample := by cases q <;> simp [State.popQ]
@[simp] theorem State.popQ_halted (q : PairQ) : (s.popQ q).halted = s.halted := by cases q <;> simp [State.popQ]
@[simp] theorem State.popQ_busGranted (q : PairQ) :
    (s.popQ q).busGranted = s.busGranted := by cases q <;> simp [State.popQ]
@[simp] theorem State.popQ_memMap (q : PairQ) : (s.popQ q).memMap = s.memMap := by cases q <;> simp [State.popQ]
@[simp] theorem State.popQ_params (q : PairQ) : (s.popQ q).params = s.params := by cases q <;> simp [State.popQ]
@[simp] theorem State.popQ_inputs (q : PairQ) : (s.popQ q).inputs = s.inputs := by cases q <;> simp [State.popQ]
@[simp] theorem State.popQ_tStates (q : PairQ) : (s.popQ q).tStates = s.tStates := by cases q <;> simp [State.popQ]

/-! ### Exchange -/

@[simp] theorem State.transferStep_alt (up : Bool) : (s.transferStep up).alt = s.alt := by simp [State.transferStep]
@[simp] theorem State.transferStep_ix (up : Bool) : (s.transferStep up).ix = s.ix := by simp [State.transferStep]
@[simp] theorem State.transferStep_iy (up : Bool) : (s.transferStep up).iy = s.iy := by simp [State.transferStep]
@[simp] theorem State.transferStep_sp (up : Bool) : (s.transferStep up).sp = s.sp := by simp [State.transferStep]
@[simp] theorem State.transferStep_pc (up : Bool) : (s.transferStep up).pc = s.pc := by simp [State.transferStep]
@[simp] theorem State.transferStep_i (up : Bool) : (s.transferStep up).i = s.i := by simp [State.transferStep]
@[simp] theorem State.transferStep_r (up : Bool) : (s.transferStep up).r = s.r := by simp [State.transferStep]
@[simp] theorem State.transferStep_iff1 (up : Bool) :
    (s.transferStep up).iff1 = s.iff1 := by simp [State.transferStep]
@[simp] theorem State.transferStep_iff2 (up : Bool) :
    (s.transferStep up).iff2 = s.iff2 := by simp [State.transferStep]
@[simp] theorem State.transferStep_im (up : Bool) : (s.transferStep up).im = s.im := by simp [State.transferStep]
@[simp] theorem State.transferStep_nmiPending (up : Bool) :
    (s.transferStep up).nmiPending = s.nmiPending := by simp [State.transferStep]
@[simp] theorem State.transferStep_noSample (up : Bool) :
    (s.transferStep up).noSample = s.noSample := by simp [State.transferStep]
@[simp] theorem State.transferStep_halted (up : Bool) :
    (s.transferStep up).halted = s.halted := by simp [State.transferStep]
@[simp] theorem State.transferStep_busGranted (up : Bool) :
    (s.transferStep up).busGranted = s.busGranted := by simp [State.transferStep]
@[simp] theorem State.transferStep_memMap (up : Bool) :
    (s.transferStep up).memMap = s.memMap := by simp [State.transferStep]
@[simp] theorem State.transferStep_params (up : Bool) :
    (s.transferStep up).params = s.params := by simp [State.transferStep]
@[simp] theorem State.transferStep_inputs (up : Bool) :
    (s.transferStep up).inputs = s.inputs := by simp [State.transferStep]
@[simp] theorem State.transferStep_tStates (up : Bool) :
    (s.transferStep up).tStates = s.tStates := by simp [State.transferStep]

@[simp] theorem State.searchStep_alt (up : Bool) : (s.searchStep up).alt = s.alt := by simp [State.searchStep]
@[simp] theorem State.searchStep_ix (up : Bool) : (s.searchStep up).ix = s.ix := by simp [State.searchStep]
@[simp] theorem State.searchStep_iy (up : Bool) : (s.searchStep up).iy = s.iy := by simp [State.searchStep]
@[simp] theorem State.searchStep_sp (up : Bool) : (s.searchStep up).sp = s.sp := by simp [State.searchStep]
@[simp] theorem State.searchStep_pc (up : Bool) : (s.searchStep up).pc = s.pc := by simp [State.searchStep]
@[simp] theorem State.searchStep_i (up : Bool) : (s.searchStep up).i = s.i := by simp [State.searchStep]
@[simp] theorem State.searchStep_r (up : Bool) : (s.searchStep up).r = s.r := by simp [State.searchStep]
@[simp] theorem State.searchStep_iff1 (up : Bool) : (s.searchStep up).iff1 = s.iff1 := by simp [State.searchStep]
@[simp] theorem State.searchStep_iff2 (up : Bool) : (s.searchStep up).iff2 = s.iff2 := by simp [State.searchStep]
@[simp] theorem State.searchStep_im (up : Bool) : (s.searchStep up).im = s.im := by simp [State.searchStep]
@[simp] theorem State.searchStep_nmiPending (up : Bool) :
    (s.searchStep up).nmiPending = s.nmiPending := by simp [State.searchStep]
@[simp] theorem State.searchStep_noSample (up : Bool) :
    (s.searchStep up).noSample = s.noSample := by simp [State.searchStep]
@[simp] theorem State.searchStep_halted (up : Bool) :
    (s.searchStep up).halted = s.halted := by simp [State.searchStep]
@[simp] theorem State.searchStep_busGranted (up : Bool) :
    (s.searchStep up).busGranted = s.busGranted := by simp [State.searchStep]
@[simp] theorem State.searchStep_memMap (up : Bool) :
    (s.searchStep up).memMap = s.memMap := by simp [State.searchStep]
@[simp] theorem State.searchStep_params (up : Bool) :
    (s.searchStep up).params = s.params := by simp [State.searchStep]
@[simp] theorem State.searchStep_inputs (up : Bool) :
    (s.searchStep up).inputs = s.inputs := by simp [State.searchStep]
@[simp] theorem State.searchStep_tStates (up : Bool) :
    (s.searchStep up).tStates = s.tStates := by simp [State.searchStep]

@[simp] theorem State.repeatTransfer_regs :
    (s.repeatTransfer).regs = s.regs := by unfold State.repeatTransfer; split <;> rfl
@[simp] theorem State.repeatTransfer_alt :
    (s.repeatTransfer).alt = s.alt := by unfold State.repeatTransfer; split <;> rfl
@[simp] theorem State.repeatTransfer_ix :
    (s.repeatTransfer).ix = s.ix := by unfold State.repeatTransfer; split <;> rfl
@[simp] theorem State.repeatTransfer_iy :
    (s.repeatTransfer).iy = s.iy := by unfold State.repeatTransfer; split <;> rfl
@[simp] theorem State.repeatTransfer_sp :
    (s.repeatTransfer).sp = s.sp := by unfold State.repeatTransfer; split <;> rfl
@[simp] theorem State.repeatTransfer_i : (s.repeatTransfer).i = s.i := by unfold State.repeatTransfer; split <;> rfl
@[simp] theorem State.repeatTransfer_r : (s.repeatTransfer).r = s.r := by unfold State.repeatTransfer; split <;> rfl
@[simp] theorem State.repeatTransfer_iff1 :
    (s.repeatTransfer).iff1 = s.iff1 := by unfold State.repeatTransfer; split <;> rfl
@[simp] theorem State.repeatTransfer_iff2 :
    (s.repeatTransfer).iff2 = s.iff2 := by unfold State.repeatTransfer; split <;> rfl
@[simp] theorem State.repeatTransfer_im :
    (s.repeatTransfer).im = s.im := by unfold State.repeatTransfer; split <;> rfl
@[simp] theorem State.repeatTransfer_nmiPending :
    (s.repeatTransfer).nmiPending = s.nmiPending := by unfold State.repeatTransfer; split <;> rfl
@[simp] theorem State.repeatTransfer_noSample :
    (s.repeatTransfer).noSample = s.noSample := by unfold State.repeatTransfer; split <;> rfl
@[simp] theorem State.repeatTransfer_halted :
    (s.repeatTransfer).halted = s.halted := by unfold State.repeatTransfer; split <;> rfl
@[simp] theorem State.repeatTransfer_busGranted :
    (s.repeatTransfer).busGranted = s.busGranted := by unfold State.repeatTransfer; split <;> rfl
@[simp] theorem State.repeatTransfer_mem :
    (s.repeatTransfer).mem = s.mem := by unfold State.repeatTransfer; split <;> rfl
@[simp] theorem State.repeatTransfer_memMap :
    (s.repeatTransfer).memMap = s.memMap := by unfold State.repeatTransfer; split <;> rfl
@[simp] theorem State.repeatTransfer_params :
    (s.repeatTransfer).params = s.params := by unfold State.repeatTransfer; split <;> rfl
@[simp] theorem State.repeatTransfer_devices :
    (s.repeatTransfer).devices = s.devices := by unfold State.repeatTransfer; split <;> rfl
@[simp] theorem State.repeatTransfer_inputs :
    (s.repeatTransfer).inputs = s.inputs := by unfold State.repeatTransfer; split <;> rfl
@[simp] theorem State.repeatTransfer_ioReplies :
    (s.repeatTransfer).ioReplies = s.ioReplies := by unfold State.repeatTransfer; split <;> rfl
@[simp] theorem State.repeatTransfer_memReplies :
    (s.repeatTransfer).memReplies = s.memReplies := by unfold State.repeatTransfer; split <;> rfl
@[simp] theorem State.repeatTransfer_cycleDma :
    (s.repeatTransfer).cycleDma = s.cycleDma := by unfold State.repeatTransfer; split <;> rfl
@[simp] theorem State.repeatTransfer_busLog :
    (s.repeatTransfer).busLog = s.busLog := by unfold State.repeatTransfer; split <;> rfl
@[simp] theorem State.repeatTransfer_draws :
    (s.repeatTransfer).draws = s.draws := by unfold State.repeatTransfer; split <;> rfl
@[simp] theorem State.repeatTransfer_tStates :
    (s.repeatTransfer).tStates = s.tStates := by unfold State.repeatTransfer; split <;> rfl

@[simp] theorem State.repeatSearch_regs :
    (s.repeatSearch).regs = s.regs := by unfold State.repeatSearch; split <;> rfl
@[simp] theorem State.repeatSearch_alt : (s.repeatSearch).alt = s.alt := by unfold State.repeatSearch; split <;> rfl
@[simp] theorem State.repeatSearch_ix : (s.repeatSearch).ix = s.ix := by unfold State.repeatSearch; split <;> rfl
@[simp] theorem State.repeatSearch_iy : (s.repeatSearch).iy = s.iy := by unfold State.repeatSearch; split <;> rfl
@[simp] theorem State.repeatSearch_sp : (s.repeatSearch).sp = s.sp := by unfold State.repeatSearch; split <;> rfl
@[simp] theorem State.repeatSearch_i : (s.repeatSearch).i = s.i := by unfold State.repeatSearch; split <;> rfl
@[simp] theorem State.repeatSearch_r : (s.repeatSearch).r = s.r := by unfold State.repeatSearch; split <;> rfl
@[simp] theorem State.repeatSearch_iff1 :
    (s.repeatSearch).iff1 = s.iff1 := by unfold State.repeatSearch; split <;> rfl
@[simp] theorem State.repeatSearch_iff2 :
    (s.repeatSearch).iff2 = s.iff2 := by unfold State.repeatSearch; split <;> rfl
@[simp] theorem State.repeatSearch_im : (s.repeatSearch).im = s.im := by unfold State.repeatSearch; split <;> rfl
@[simp] theorem State.repeatSearch_nmiPending :
    (s.repeatSearch).nmiPending = s.nmiPending := by unfold State.repeatSearch; split <;> rfl
@[simp] theorem State.repeatSearch_noSample :
    (s.repeatSearch).noSample = s.noSample := by unfold State.repeatSearch; split <;> rfl
@[simp] theorem State.repeatSearch_halted :
    (s.repeatSearch).halted = s.halted := by unfold State.repeatSearch; split <;> rfl
@[simp] theorem State.repeatSearch_busGranted :
    (s.repeatSearch).busGranted = s.busGranted := by unfold State.repeatSearch; split <;> rfl
@[simp] theorem State.repeatSearch_mem : (s.repeatSearch).mem = s.mem := by unfold State.repeatSearch; split <;> rfl
@[simp] theorem State.repeatSearch_memMap :
    (s.repeatSearch).memMap = s.memMap := by unfold State.repeatSearch; split <;> rfl
@[simp] theorem State.repeatSearch_params :
    (s.repeatSearch).params = s.params := by unfold State.repeatSearch; split <;> rfl
@[simp] theorem State.repeatSearch_devices :
    (s.repeatSearch).devices = s.devices := by unfold State.repeatSearch; split <;> rfl
@[simp] theorem State.repeatSearch_inputs :
    (s.repeatSearch).inputs = s.inputs := by unfold State.repeatSearch; split <;> rfl
@[simp] theorem State.repeatSearch_ioReplies :
    (s.repeatSearch).ioReplies = s.ioReplies := by unfold State.repeatSearch; split <;> rfl
@[simp] theorem State.repeatSearch_memReplies :
    (s.repeatSearch).memReplies = s.memReplies := by unfold State.repeatSearch; split <;> rfl
@[simp] theorem State.repeatSearch_cycleDma :
    (s.repeatSearch).cycleDma = s.cycleDma := by unfold State.repeatSearch; split <;> rfl
@[simp] theorem State.repeatSearch_busLog :
    (s.repeatSearch).busLog = s.busLog := by unfold State.repeatSearch; split <;> rfl
@[simp] theorem State.repeatSearch_draws :
    (s.repeatSearch).draws = s.draws := by unfold State.repeatSearch; split <;> rfl
@[simp] theorem State.repeatSearch_tStates :
    (s.repeatSearch).tStates = s.tStates := by unfold State.repeatSearch; split <;> rfl

/-! ### Alu8 -/

@[simp] theorem State.addA_alt (v : Byte) : (s.addA v).alt = s.alt := rfl
@[simp] theorem State.addA_ix (v : Byte) : (s.addA v).ix = s.ix := rfl
@[simp] theorem State.addA_iy (v : Byte) : (s.addA v).iy = s.iy := rfl
@[simp] theorem State.addA_sp (v : Byte) : (s.addA v).sp = s.sp := rfl
@[simp] theorem State.addA_pc (v : Byte) : (s.addA v).pc = s.pc := rfl
@[simp] theorem State.addA_i (v : Byte) : (s.addA v).i = s.i := rfl
@[simp] theorem State.addA_r (v : Byte) : (s.addA v).r = s.r := rfl
@[simp] theorem State.addA_iff1 (v : Byte) : (s.addA v).iff1 = s.iff1 := rfl
@[simp] theorem State.addA_iff2 (v : Byte) : (s.addA v).iff2 = s.iff2 := rfl
@[simp] theorem State.addA_im (v : Byte) : (s.addA v).im = s.im := rfl
@[simp] theorem State.addA_nmiPending (v : Byte) : (s.addA v).nmiPending = s.nmiPending := rfl
@[simp] theorem State.addA_noSample (v : Byte) : (s.addA v).noSample = s.noSample := rfl
@[simp] theorem State.addA_halted (v : Byte) : (s.addA v).halted = s.halted := rfl
@[simp] theorem State.addA_busGranted (v : Byte) : (s.addA v).busGranted = s.busGranted := rfl
@[simp] theorem State.addA_mem (v : Byte) : (s.addA v).mem = s.mem := rfl
@[simp] theorem State.addA_memMap (v : Byte) : (s.addA v).memMap = s.memMap := rfl
@[simp] theorem State.addA_params (v : Byte) : (s.addA v).params = s.params := rfl
@[simp] theorem State.addA_devices (v : Byte) : (s.addA v).devices = s.devices := rfl
@[simp] theorem State.addA_inputs (v : Byte) : (s.addA v).inputs = s.inputs := rfl
@[simp] theorem State.addA_ioReplies (v : Byte) : (s.addA v).ioReplies = s.ioReplies := rfl
@[simp] theorem State.addA_memReplies (v : Byte) : (s.addA v).memReplies = s.memReplies := rfl
@[simp] theorem State.addA_cycleDma (v : Byte) : (s.addA v).cycleDma = s.cycleDma := rfl
@[simp] theorem State.addA_busLog (v : Byte) : (s.addA v).busLog = s.busLog := rfl
@[simp] theorem State.addA_draws (v : Byte) : (s.addA v).draws = s.draws := rfl
@[simp] theorem State.addA_tStates (v : Byte) : (s.addA v).tStates = s.tStates := rfl

@[simp] theorem State.adcA_alt (v : Byte) : (s.adcA v).alt = s.alt := rfl
@[simp] theorem State.adcA_ix (v : Byte) : (s.adcA v).ix = s.ix := rfl
@[simp] theorem State.adcA_iy (v : Byte) : (s.adcA v).iy = s.iy := rfl
@[simp] theorem State.adcA_sp (v : Byte) : (s.adcA v).sp = s.sp := rfl
@[simp] theorem State.adcA_pc (v : Byte) : (s.adcA v).pc = s.pc := rfl
@[simp] theorem State.adcA_i (v : Byte) : (s.adcA v).i = s.i := rfl
@[simp] theorem State.adcA_r (v : Byte) : (s.adcA v).r = s.r := rfl
@[simp] theorem State.adcA_iff1 (v : Byte) : (s.adcA v).iff1 = s.iff1 := rfl
@[simp] theorem State.adcA_iff2 (v : Byte) : (s.adcA v).iff2 = s.iff2 := rfl
@[simp] theorem State.adcA_im (v : Byte) : (s.adcA v).im = s.im := rfl
@[simp] theorem State.adcA_nmiPending (v : Byte) : (s.adcA v).nmiPending = s.nmiPending := rfl
@[simp] theorem State.adcA_noSample (v : Byte) : (s.adcA v).noSample = s.noSample := rfl
@[simp] theorem State.adcA_halted (v : Byte) : (s.adcA v).halted = s.halted := rfl
@[simp] theorem State.adcA_busGranted (v : Byte) : (s.adcA v).busGranted = s.busGranted := rfl
@[simp] theorem State.adcA_mem (v : Byte) : (s.adcA v).mem = s.mem := rfl
@[simp] theorem State.adcA_memMap (v : Byte) : (s.adcA v).memMap = s.memMap := rfl
@[simp] theorem State.adcA_params (v : Byte) : (s.adcA v).params = s.params := rfl
@[simp] theorem State.adcA_devices (v : Byte) : (s.adcA v).devices = s.devices := rfl
@[simp] theorem State.adcA_inputs (v : Byte) : (s.adcA v).inputs = s.inputs := rfl
@[simp] theorem State.adcA_ioReplies (v : Byte) : (s.adcA v).ioReplies = s.ioReplies := rfl
@[simp] theorem State.adcA_memReplies (v : Byte) : (s.adcA v).memReplies = s.memReplies := rfl
@[simp] theorem State.adcA_cycleDma (v : Byte) : (s.adcA v).cycleDma = s.cycleDma := rfl
@[simp] theorem State.adcA_busLog (v : Byte) : (s.adcA v).busLog = s.busLog := rfl
@[simp] theorem State.adcA_draws (v : Byte) : (s.adcA v).draws = s.draws := rfl
@[simp] theorem State.adcA_tStates (v : Byte) : (s.adcA v).tStates = s.tStates := rfl

@[simp] theorem State.subA_alt (v : Byte) : (s.subA v).alt = s.alt := rfl
@[simp] theorem State.subA_ix (v : Byte) : (s.subA v).ix = s.ix := rfl
@[simp] theorem State.subA_iy (v : Byte) : (s.subA v).iy = s.iy := rfl
@[simp] theorem State.subA_sp (v : Byte) : (s.subA v).sp = s.sp := rfl
@[simp] theorem State.subA_pc (v : Byte) : (s.subA v).pc = s.pc := rfl
@[simp] theorem State.subA_i (v : Byte) : (s.subA v).i = s.i := rfl
@[simp] theorem State.subA_r (v : Byte) : (s.subA v).r = s.r := rfl
@[simp] theorem State.subA_iff1 (v : Byte) : (s.subA v).iff1 = s.iff1 := rfl
@[simp] theorem State.subA_iff2 (v : Byte) : (s.subA v).iff2 = s.iff2 := rfl
@[simp] theorem State.subA_im (v : Byte) : (s.subA v).im = s.im := rfl
@[simp] theorem State.subA_nmiPending (v : Byte) : (s.subA v).nmiPending = s.nmiPending := rfl
@[simp] theorem State.subA_noSample (v : Byte) : (s.subA v).noSample = s.noSample := rfl
@[simp] theorem State.subA_halted (v : Byte) : (s.subA v).halted = s.halted := rfl
@[simp] theorem State.subA_busGranted (v : Byte) : (s.subA v).busGranted = s.busGranted := rfl
@[simp] theorem State.subA_mem (v : Byte) : (s.subA v).mem = s.mem := rfl
@[simp] theorem State.subA_memMap (v : Byte) : (s.subA v).memMap = s.memMap := rfl
@[simp] theorem State.subA_params (v : Byte) : (s.subA v).params = s.params := rfl
@[simp] theorem State.subA_devices (v : Byte) : (s.subA v).devices = s.devices := rfl
@[simp] theorem State.subA_inputs (v : Byte) : (s.subA v).inputs = s.inputs := rfl
@[simp] theorem State.subA_ioReplies (v : Byte) : (s.subA v).ioReplies = s.ioReplies := rfl
@[simp] theorem State.subA_memReplies (v : Byte) : (s.subA v).memReplies = s.memReplies := rfl
@[simp] theorem State.subA_cycleDma (v : Byte) : (s.subA v).cycleDma = s.cycleDma := rfl
@[simp] theorem State.subA_busLog (v : Byte) : (s.subA v).busLog = s.busLog := rfl
@[simp] theorem State.subA_draws (v : Byte) : (s.subA v).draws = s.draws := rfl
@[simp] theorem State.subA_tStates (v : Byte) : (s.subA v).tStates = s.tStates := rfl

@[simp] theorem State.sbcA_alt (v : Byte) : (s.sbcA v).alt = s.alt := rfl
@[simp] theorem State.sbcA_ix (v : Byte) : (s.sbcA v).ix = s.ix := rfl
@[simp] theorem State.sbcA_iy (v : Byte) : (s.sbcA v).iy = s.iy := rfl
@[simp] theorem State.sbcA_sp (v : Byte) : (s.sbcA v).sp = s.sp := rfl
@[simp] theorem State.sbcA_pc (v : Byte) : (s.sbcA v).pc = s.pc := rfl
@[simp] theorem State.sbcA_i (v : Byte) : (s.sbcA v).i = s.i := rfl
@[simp] theorem State.sbcA_r (v : Byte) : (s.sbcA v).r = s.r := rfl
@[simp] theorem State.sbcA_iff1 (v : Byte) : (s.sbcA v).iff1 = s.iff1 := rfl
@[simp] theorem State.sbcA_iff2 (v : Byte) : (s.sbcA v).iff2 = s.iff2 := rfl
@[simp] theorem State.sbcA_im (v : Byte) : (s.sbcA v).im = s.im := rfl
@[simp] theorem State.sbcA_nmiPending (v : Byte) : (s.sbcA v).nmiPending = s.nmiPending := rfl
@[simp] theorem State.sbcA_noSample (v : Byte) : (s.sbcA v).noSample = s.noSample := rfl
@[simp] theorem State.sbcA_halted (v : Byte) : (s.sbcA v).halted = s.halted := rfl
@[simp] theorem State.sbcA_busGranted (v : Byte) : (s.sbcA v).busGranted = s.busGranted := rfl
@[simp] theorem State.sbcA_mem (v : Byte) : (s.sbcA v).mem = s.mem := rfl
@[simp] theorem State.sbcA_memMap (v : Byte) : (s.sbcA v).memMap = s.memMap := rfl
@[simp] theorem State.sbcA_params (v : Byte) : (s.sbcA v).params = s.params := rfl
@[simp] theorem State.sbcA_devices (v : Byte) : (s.sbcA v).devices = s.devices := rfl
@[simp] theorem State.sbcA_inputs (v : Byte) : (s.sbcA v).inputs = s.inputs := rfl
@[simp] theorem State.sbcA_ioReplies (v : Byte) : (s.sbcA v).ioReplies = s.ioReplies := rfl
@[simp] theorem State.sbcA_memReplies (v : Byte) : (s.sbcA v).memReplies = s.memReplies := rfl
@[simp] theorem State.sbcA_cycleDma (v : Byte) : (s.sbcA v).cycleDma = s.cycleDma := rfl
@[simp] theorem State.sbcA_busLog (v : Byte) : (s.sbcA v).busLog = s.busLog := rfl
@[simp] theorem State.sbcA_draws (v : Byte) : (s.sbcA v).draws = s.draws := rfl
@[simp] theorem State.sbcA_tStates (v : Byte) : (s.sbcA v).tStates = s.tStates := rfl

@[simp] theorem State.andA_alt (v : Byte) : (s.andA v).alt = s.alt := rfl
@[simp] theorem State.andA_ix (v : Byte) : (s.andA v).ix = s.ix := rfl
@[simp] theorem State.andA_iy (v : Byte) : (s.andA v).iy = s.iy := rfl
@[simp] theorem State.andA_sp (v : Byte) : (s.andA v).sp = s.sp := rfl
@[simp] theorem State.andA_pc (v : Byte) : (s.andA v).pc = s.pc := rfl
@[simp] theorem State.andA_i (v : Byte) : (s.andA v).i = s.i := rfl
@[simp] theorem State.andA_r (v : Byte) : (s.andA v).r = s.r := rfl
@[simp] theorem State.andA_iff1 (v : Byte) : (s.andA v).iff1 = s.iff1 := rfl
@[simp] theorem State.andA_iff2 (v : Byte) : (s.andA v).iff2 = s.iff2 := rfl
@[simp] theorem State.andA_im (v : Byte) : (s.andA v).im = s.im := rfl
@[simp] theorem State.andA_nmiPending (v : Byte) : (s.andA v).nmiPending = s.nmiPending := rfl
@[simp] theorem State.andA_noSample (v : Byte) : (s.andA v).noSample = s.noSample := rfl
@[simp] theorem State.andA_halted (v : Byte) : (s.andA v).halted = s.halted := rfl
@[simp] theorem State.andA_busGranted (v : Byte) : (s.andA v).busGranted = s.busGranted := rfl
@[simp] theorem State.andA_mem (v : Byte) : (s.andA v).mem = s.mem := rfl
@[simp] theorem State.andA_memMap (v : Byte) : (s.andA v).memMap = s.memMap := rfl
@[simp] theorem State.andA_params (v : Byte) : (s.andA v).params = s.params := rfl
@[simp] theorem State.andA_devices (v : Byte) : (s.andA v).devices = s.devices := rfl
@[simp] theorem State.andA_inputs (v : Byte) : (s.andA v).inputs = s.inputs := rfl
@[simp] theorem State.andA_ioReplies (v : Byte) : (s.andA v).ioReplies = s.ioReplies := rfl
@[simp] theorem State.andA_memReplies (v : Byte) : (s.andA v).memReplies = s.memReplies := rfl
@[simp] theorem State.andA_cycleDma (v : Byte) : (s.andA v).cycleDma = s.cycleDma := rfl
@[simp] theorem State.andA_busLog (v : Byte) : (s.andA v).busLog = s.busLog := rfl
@[simp] theorem State.andA_draws (v : Byte) : (s.andA v).draws = s.draws := rfl
@[simp] theorem State.andA_tStates (v : Byte) : (s.andA v).tStates = s.tStates := rfl

@[simp] theorem State.orA_alt (v : Byte) : (s.orA v).alt = s.alt := rfl
@[simp] theorem State.orA_ix (v : Byte) : (s.orA v).ix = s.ix := rfl
@[simp] theorem State.orA_iy (v : Byte) : (s.orA v).iy = s.iy := rfl
@[simp] theorem State.orA_sp (v : Byte) : (s.orA v).sp = s.sp := rfl
@[simp] theorem State.orA_pc (v : Byte) : (s.orA v).pc = s.pc := rfl
@[simp] theorem State.orA_i (v : Byte) : (s.orA v).i = s.i := rfl
@[simp] theorem State.orA_r (v : Byte) : (s.orA v).r = s.r := rfl
@[simp] theorem State.orA_iff1 (v : Byte) : (s.orA v).iff1 = s.iff1 := rfl
@[simp] theorem State.orA_iff2 (v : Byte) : (s.orA v).iff2 = s.iff2 := rfl
@[simp] theorem State.orA_im (v : Byte) : (s.orA v).im = s.im := rfl
@[simp] theorem State.orA_nmiPending (v : Byte) : (s.orA v).nmiPending = s.nmiPending := rfl
@[simp] theorem State.orA_noSample (v : Byte) : (s.orA v).noSample = s.noSample := rfl
@[simp] theorem State.orA_halted (v : Byte) : (s.orA v).halted = s.halted := rfl
@[simp] theorem State.orA_busGranted (v : Byte) : (s.orA v).busGranted = s.busGranted := rfl
@[simp] theorem State.orA_mem (v : Byte) : (s.orA v).mem = s.mem := rfl
@[simp] theorem State.orA_memMap (v : Byte) : (s.orA v).memMap = s.memMap := rfl
@[simp] theorem State.orA_params (v : Byte) : (s.orA v).params = s.params := rfl
@[simp] theorem State.orA_devices (v : Byte) : (s.orA v).devices = s.devices := rfl
@[simp] theorem State.orA_inputs (v : Byte) : (s.orA v).inputs = s.inputs := rfl
@[simp] theorem State.orA_ioReplies (v : Byte) : (s.orA v).ioReplies = s.ioReplies := rfl
@[simp] theorem State.orA_memReplies (v : Byte) : (s.orA v).memReplies = s.memReplies := rfl
@[simp] theorem State.orA_cycleDma (v : Byte) : (s.orA v).cycleDma = s.cycleDma := rfl
@[simp] theorem State.orA_busLog (v : Byte) : (s.orA v).busLog = s.busLog := rfl
@[simp] theorem State.orA_draws (v : Byte) : (s.orA v).draws = s.draws := rfl
@[simp] theorem State.orA_tStates (v : Byte) : (s.orA v).tStates = s.tStates := rfl

@[simp] theorem State.xorA_alt (v : Byte) : (s.xorA v).alt = s.alt := rfl
@[simp] theorem State.xorA_ix (v : Byte) : (s.xorA v).ix = s.ix := rfl
@[simp] theorem State.xorA_iy (v : Byte) : (s.xorA v).iy = s.iy := rfl
@[simp] theorem State.xorA_sp (v : Byte) : (s.xorA v).sp = s.sp := rfl
@[simp] theorem State.xorA_pc (v : Byte) : (s.xorA v).pc = s.pc := rfl
@[simp] theorem State.xorA_i (v : Byte) : (s.xorA v).i = s.i := rfl
@[simp] theorem State.xorA_r (v : Byte) : (s.xorA v).r = s.r := rfl
@[simp] theorem State.xorA_iff1 (v : Byte) : (s.xorA v).iff1 = s.iff1 := rfl
@[simp] theorem State.xorA_iff2 (v : Byte) : (s.xorA v).iff2 = s.iff2 := rfl
@[simp] theorem State.xorA_im (v : Byte) : (s.xorA v).im = s.im := rfl
@[simp] theorem State.xorA_nmiPending (v : Byte) : (s.xorA v).nmiPending = s.nmiPending := rfl
@[simp] theorem State.xorA_noSample (v : Byte) : (s.xorA v).noSample = s.noSample := rfl
@[simp] theorem State.xorA_halted (v : Byte) : (s.xorA v).halted = s.halted := rfl
@[simp] theorem State.xorA_busGranted (v : Byte) : (s.xorA v).busGranted = s.busGranted := rfl
@[simp] theorem State.xorA_mem (v : Byte) : (s.xorA v).mem = s.mem := rfl
@[simp] theorem State.xorA_memMap (v : Byte) : (s.xorA v).memMap = s.memMap := rfl
@[simp] theorem State.xorA_params (v : Byte) : (s.xorA v).params = s.params := rfl
@[simp] theorem State.xorA_devices (v : Byte) : (s.xorA v).devices = s.devices := rfl
@[simp] theorem State.xorA_inputs (v : Byte) : (s.xorA v).inputs = s.inputs := rfl
@[simp] theorem State.xorA_ioReplies (v : Byte) : (s.xorA v).ioReplies = s.ioReplies := rfl
@[simp] theorem State.xorA_memReplies (v : Byte) : (s.xorA v).memReplies = s.memReplies := rfl
@[simp] theorem State.xorA_cycleDma (v : Byte) : (s.xorA v).cycleDma = s.cycleDma := rfl
@[simp] theorem State.xorA_busLog (v : Byte) : (s.xorA v).busLog = s.busLog := rfl
@[simp] theorem State.xorA_draws (v : Byte) : (s.xorA v).draws = s.draws := rfl
@[simp] theorem State.xorA_tStates (v : Byte) : (s.xorA v).tStates = s.tStates := rfl

@[simp] theorem State.cpA_alt (v : Byte) : (s.cpA v).alt = s.alt := rfl
@[simp] theorem State.cpA_ix (v : Byte) : (s.cpA v).ix = s.ix := rfl
@[simp] theorem State.cpA_iy (v : Byte) : (s.cpA v).iy = s.iy := rfl
@[simp] theorem State.cpA_sp (v : Byte) : (s.cpA v).sp = s.sp := rfl
@[simp] theorem State.cpA_pc (v : Byte) : (s.cpA v).pc = s.pc := rfl
@[simp] theorem State.cpA_i (v : Byte) : (s.cpA v).i = s.i := rfl
@[simp] theorem State.cpA_r (v : Byte) : (s.cpA v).r = s.r := rfl
@[simp] theorem State.cpA_iff1 (v : Byte) : (s.cpA v).iff1 = s.iff1 := rfl
@[simp] theorem State.cpA_iff2 (v : Byte) : (s.cpA v).iff2 = s.iff2 := rfl
@[simp] theorem State.cpA_im (v : Byte) : (s.cpA v).im = s.im := rfl
@[simp] theorem State.cpA_nmiPending (v : Byte) : (s.cpA v).nmiPending = s.nmiPending := rfl
@[simp] theorem State.cpA_noSample (v : Byte) : (s.cpA v).noSample = s.noSample := rfl
@[simp] theorem State.cpA_halted (v : Byte) : (s.cpA v).halted = s.halted := rfl
@[simp] theorem State.cpA_busGranted (v : Byte) : (s.cpA v).busGranted = s.busGranted := rfl
@[simp] theorem State.cpA_mem (v : Byte) : (s.cpA v).mem = s.mem := rfl
@[simp] theorem State.cpA_memMap (v : Byte) : (s.cpA v).memMap = s.memMap := rfl
@[simp] theorem State.cpA_params (v : Byte) : (s.cpA v).params = s.params := rfl
@[simp] theorem State.cpA_devices (v : Byte) : (s.cpA v).devices = s.devices := rfl
@[simp] theorem State.cpA_inputs (v : Byte) : (s.cpA v).inputs = s.inputs := rfl
@[simp] theorem State.cpA_ioReplies (v : Byte) : (s.cpA v).ioReplies = s.ioReplies := rfl
@[simp] theorem State.cpA_memReplies (v : Byte) : (s.cpA v).memReplies = s.memReplies := rfl
@[simp] theorem State.cpA_cycleDma (v : Byte) : (s.cpA v).cycleDma = s.cycleDma := rfl
@[simp] theorem State.cpA_busLog (v : Byte) : (s.cpA v).busLog = s.busLog := rfl
@[simp] theorem State.cpA_draws (v : Byte) : (s.cpA v).draws = s.draws := rfl
@[simp] theorem State.cpA_tStates (v : Byte) : (s.cpA v).tStates = s.tStates := rfl

@[simp] theorem State.incAt_alt (a : Word) : (s.incAt a).alt = s.alt := by simp [State.incAt]
@[simp] theorem State.incAt_ix (a : Word) : (s.incAt a).ix = s.ix := by simp [State.incAt]
@[simp] theorem State.incAt_iy (a : Word) : (s.incAt a).iy = s.iy := by simp [State.incAt]
@[simp] theorem State.incAt_sp (a : Word) : (s.incAt a).sp = s.sp := by simp [State.incAt]
@[simp] theorem State.incAt_pc (a : Word) : (s.incAt a).pc = s.pc := by simp [State.incAt]
@[simp] theorem State.incAt_i (a : Word) : (s.incAt a).i = s.i := by simp [State.incAt]
@[simp] theorem State.incAt_r (a : Word) : (s.incAt a).r = s.r := by simp [State.incAt]
@[simp] theorem State.incAt_iff1 (a : Word) : (s.incAt a).iff1 = s.iff1 := by simp [State.incAt]
@[simp] theorem State.incAt_iff2 (a : Word) : (s.incAt a).iff2 = s.iff2 := by simp [State.incAt]
@[simp] theorem State.incAt_im (a : Word) : (s.incAt a).im = s.im := by simp [State.incAt]
@[simp] theorem State.incAt_nmiPending (a : Word) : (s.incAt a).nmiPending = s.nmiPending := by simp [State.incAt]
@[simp] theorem State.incAt_noSample (a : Word) : (s.incAt a).noSample = s.noSample := by simp [State.incAt]
@[simp] theorem State.incAt_halted (a : Word) : (s.incAt a).halted = s.halted := by simp [State.incAt]
@[simp] theorem State.incAt_busGranted (a : Word) : (s.incAt a).busGranted = s.busGranted := by simp [State.incAt]
@[simp] theorem State.incAt_memMap (a : Word) : (s.incAt a).memMap = s.memMap := by simp [State.incAt]
@[simp] theorem State.incAt_params (a : Word) : (s.incAt a).params = s.params := by simp [State.incAt]
@[simp] theorem State.incAt_inputs (a : Word) : (s.incAt a).inputs = s.inputs := by simp [State.incAt]
@[simp] theorem State.incAt_tStates (a : Word) : (s.incAt a).tStates = s.tStates := by simp [State.incAt]

@[simp] theorem State.decAt_alt (a : Word) : (s.decAt a).alt = s.alt := by simp [State.decAt]
@[simp] theorem State.decAt_ix (a : Word) : (s.decAt a).ix = s.ix := by simp [State.decAt]
@[simp] theorem State.decAt_iy (a : Word) : (s.decAt a).iy = s.iy := by simp [State.decAt]
@[simp] theorem State.decAt_sp (a : Word) : (s.decAt a).sp = s.sp := by simp [State.decAt]
@[simp] theorem State.decAt_pc (a : Word) : (s.decAt a).pc = s.pc := by simp [State.decAt]
@[simp] theorem State.decAt_i (a : Word) : (s.decAt a).i = s.i := by simp [State.decAt]
@[simp] theorem State.decAt_r (a : Word) : (s.decAt a).r = s.r := by simp [State.decAt]
@[simp] theorem State.decAt_iff1 (a : Word) : (s.decAt a).iff1 = s.iff1 := by simp [State.decAt]
@[simp] theorem State.decAt_iff2 (a : Word) : (s.decAt a).iff2 = s.iff2 := by simp [State.decAt]
@[simp] theorem State.decAt_im (a : Word) : (s.decAt a).im = s.im := by simp [State.decAt]
@[simp] theorem State.decAt_nmiPending (a : Word) : (s.decAt a).nmiPending = s.nmiPending := by simp [State.decAt]
@[simp] theorem State.decAt_noSample (a : Word) : (s.decAt a).noSample = s.noSample := by simp [State.decAt]
@[simp] theorem State.decAt_halted (a : Word) : (s.decAt a).halted = s.halted := by simp [State.decAt]
@[simp] theorem State.decAt_busGranted (a : Word) : (s.decAt a).busGranted = s.busGranted := by simp [State.decAt]
@[simp] theorem State.decAt_memMap (a : Word) : (s.decAt a).memMap = s.memMap := by simp [State.decAt]
@[simp] theorem State.decAt_params (a : Word) : (s.decAt a).params = s.params := by simp [State.decAt]
@[simp] theorem State.decAt_inputs (a : Word) : (s.decAt a).inputs = s.inputs := by simp [State.decAt]
@[simp] theorem State.decAt_tStates (a : Word) : (s.decAt a).tStates = s.tStates := by simp [State.decAt]

/-! ### Arith16 -/

@[simp] theorem State.setHlF_alt (p : Word × Flags) : (s.setHlF p).alt = s.alt := rfl
@[simp] theorem State.setHlF_ix (p : Word × Flags) : (s.setHlF p).ix = s.ix := rfl
@[simp] theorem State.setHlF_iy (p : Word × Flags) : (s.setHlF p).iy = s.iy := rfl
@[simp] theorem State.setHlF_sp (p : Word × Flags) : (s.setHlF p).sp = s.sp := rfl
@[simp] theorem State.setHlF_pc (p : Word × Flags) : (s.setHlF p).pc = s.pc := rfl
@[simp] theorem State.setHlF_i (p : Word × Flags) : (s.setHlF p).i = s.i := rfl
@[simp] theorem State.setHlF_r (p : Word × Flags) : (s.setHlF p).r = s.r := rfl
@[simp] theorem State.setHlF_iff1 (p : Word × Flags) : (s.setHlF p).iff1 = s.iff1 := rfl
@[simp] theorem State.setHlF_iff2 (p : Word × Flags) : (s.setHlF p).iff2 = s.iff2 := rfl
@[simp] theorem State.setHlF_im (p : Word × Flags) : (s.setHlF p).im = s.im := rfl
@[simp] theorem State.setHlF_nmiPending (p : Word × Flags) : (s.setHlF p).nmiPending = s.nmiPending := rfl
@[simp] theorem State.setHlF_noSample (p : Word × Flags) : (s.setHlF p).noSample = s.noSample := rfl
@[simp] theorem State.setHlF_halted (p : Word × Flags) : (s.setHlF p).halted = s.halted := rfl
@[simp] theorem State.setHlF_busGranted (p : Word × Flags) : (s.setHlF p).busGranted = s.busGranted := rfl
@[simp] theorem State.setHlF_mem (p : Word × Flags) : (s.setHlF p).mem = s.mem := rfl
@[simp] theorem State.setHlF_memMap (p : Word × Flags) : (s.setHlF p).memMap = s.memMap := rfl
@[simp] theorem State.setHlF_params (p : Word × Flags) : (s.setHlF p).params = s.params := rfl
@[simp] theorem State.setHlF_devices (p : Word × Flags) : (s.setHlF p).devices = s.devices := rfl
@[simp] theorem State.setHlF_inputs (p : Word × Flags) : (s.setHlF p).inputs = s.inputs := rfl
@[simp] theorem State.setHlF_ioReplies (p : Word × Flags) : (s.setHlF p).ioReplies = s.ioReplies := rfl
@[simp] theorem State.setHlF_memReplies (p : Word × Flags) : (s.setHlF p).memReplies = s.memReplies := rfl
@[simp] theorem State.setHlF_cycleDma (p : Word × Flags) : (s.setHlF p).cycleDma = s.cycleDma := rfl
@[simp] theorem State.setHlF_busLog (p : Word × Flags) : (s.setHlF p).busLog = s.busLog := rfl
@[simp] theorem State.setHlF_draws (p : Word × Flags) : (s.setHlF p).draws = s.draws := rfl
@[simp] theorem State.setHlF_tStates (p : Word × Flags) : (s.setHlF p).tStates = s.tStates := rfl

@[simp] theorem State.setIxF_alt (p : Word × Flags) : (s.setIxF p).alt = s.alt := rfl
@[simp] theorem State.setIxF_iy (p : Word × Flags) : (s.setIxF p).iy = s.iy := rfl
@[simp] theorem State.setIxF_sp (p : Word × Flags) : (s.setIxF p).sp = s.sp := rfl
@[simp] theorem State.setIxF_pc (p : Word × Flags) : (s.setIxF p).pc = s.pc := rfl
@[simp] theorem State.setIxF_i (p : Word × Flags) : (s.setIxF p).i = s.i := rfl
@[simp] theorem State.setIxF_r (p : Word × Flags) : (s.setIxF p).r = s.r := rfl
@[simp] theorem State.setIxF_iff1 (p : Word × Flags) : (s.setIxF p).iff1 = s.iff1 := rfl
@[simp] theorem State.setIxF_iff2 (p : Word × Flags) : (s.setIxF p).iff2 = s.iff2 := rfl
@[simp] theorem State.setIxF_im (p : Word × Flags) : (s.setIxF p).im = s.im := rfl
@[simp] theorem State.setIxF_nmiPending (p : Word × Flags) : (s.setIxF p).nmiPending = s.nmiPending := rfl
@[simp] theorem State.setIxF_noSample (p : Word × Flags) : (s.setIxF p).noSample = s.noSample := rfl
@[simp] theorem State.setIxF_halted (p : Word × Flags) : (s.setIxF p).halted = s.halted := rfl
@[simp] theorem State.setIxF_busGranted (p : Word × Flags) : (s.setIxF p).busGranted = s.busGranted := rfl
@[simp] theorem State.setIxF_mem (p : Word × Flags) : (s.setIxF p).mem = s.mem := rfl
@[simp] theorem State.setIxF_memMap (p : Word × Flags) : (s.setIxF p).memMap = s.memMap := rfl
@[simp] theorem State.setIxF_params (p : Word × Flags) : (s.setIxF p).params = s.params := rfl
@[simp] theorem State.setIxF_devices (p : Word × Flags) : (s.setIxF p).devices = s.devices := rfl
@[simp] theorem State.setIxF_inputs (p : Word × Flags) : (s.setIxF p).inputs = s.inputs := rfl
@[simp] theorem State.setIxF_ioReplies (p : Word × Flags) : (s.setIxF p).ioReplies = s.ioReplies := rfl
@[simp] theorem State.setIxF_memReplies (p : Word × Flags) : (s.setIxF p).memReplies = s.memReplies := rfl
@[simp] theorem State.setIxF_cycleDma (p : Word × Flags) : (s.setIxF p).cycleDma = s.cycleDma := rfl
@[simp] theorem State.setIxF_busLog (p : Word × Flags) : (s.setIxF p).busLog = s.busLog := rfl
@[simp] theorem State.setIxF_draws (p : Word × Flags) : (s.setIxF p).draws = s.draws := rfl
@[simp] theorem State.setIxF_tStates (p : Word × Flags) : (s.setIxF p).tStates = s.tStates := rfl

@[simp] theorem State.setIyF_alt (p : Word × Flags) : (s.setIyF p).alt = s.alt := rfl
@[simp] theorem State.setIyF_ix (p : Word × Flags) : (s.setIyF p).ix = s.ix := rfl
@[simp] theorem State.setIyF_sp (p : Word × Flags) : (s.setIyF p).sp = s.sp := rfl
@[simp] theorem State.setIyF_pc (p : Word × Flags) : (s.setIyF p).pc = s.pc := rfl
@[simp] theorem State.setIyF_i (p : Word × Flags) : (s.setIyF p).i = s.i := rfl
@[simp] theorem State.setIyF_r (p : Word × Flags) : (s.setIyF p).r = s.r := rfl
@[simp] theorem State.setIyF_iff1 (p : Word × Flags) : (s.setIyF p).iff1 = s.iff1 := rfl
@[simp] theorem State.setIyF_iff2 (p : Word × Flags) : (s.setIyF p).iff2 = s.iff2 := rfl
@[simp] theorem State.setIyF_im (p : Word × Flags) : (s.setIyF p).im = s.im := rfl
@[simp] theorem State.setIyF_nmiPending (p : Word × Flags) : (s.setIyF p).nmiPending = s.nmiPending := rfl
@[simp] theorem State.setIyF_noSample (p : Word × Flags) : (s.setIyF p).noSample = s.noSample := rfl
@[simp] theorem State.setIyF_halted (p : Word × Flags) : (s.setIyF p).halted = s.halted := rfl
@[simp] theorem State.setIyF_busGranted (p : Word × Flags) : (s.setIyF p).busGranted = s.busGranted := rfl
@[simp] theorem State.setIyF_mem (p : Word × Flags) : (s.setIyF p).mem = s.mem := rfl
@[simp] theorem State.setIyF_memMap (p : Word × Flags) : (s.setIyF p).memMap = s.memMap := rfl
@[simp] theorem State.setIyF_params (p : Word × Flags) : (s.setIyF p).params = s.params := rfl
@[simp] theorem State.setIyF_devices (p : Word × Flags) : (s.setIyF p).devices = s.devices := rfl
@[simp] theorem State.setIyF_inputs (p : Word × Flags) : (s.setIyF p).inputs = s.inputs := rfl
@[simp] theorem State.setIyF_ioReplies (p : Word × Flags) : (s.setIyF p).ioReplies = s.ioReplies := rfl
@[simp] theorem State.setIyF_memReplies (p : Word × Flags) : (s.setIyF p).memReplies = s.memReplies := rfl
@[simp] theorem State.setIyF_cycleDma (p : Word × Flags) : (s.setIyF p).cycleDma = s.cycleDma := rfl
@[simp] theorem State.setIyF_busLog (p : Word × Flags) : (s.setIyF p).busLog = s.busLog := rfl
@[simp] theorem State.setIyF_draws (p : Word × Flags) : (s.setIyF p).draws = s.draws := rfl
@[simp] theorem State.setIyF_tStates (p : Word × Flags) : (s.setIyF p).tStates = s.tStates := rfl

/-! ### Rotate and bit -/

@[simp] theorem State.shiftReg_alt (f : Byte → Byte × Bool) (r : Reg8) : (s.shiftReg f r).alt = s.alt := rfl
@[simp] theorem State.shiftReg_ix (f : Byte → Byte × Bool) (r : Reg8) : (s.shiftReg f r).ix = s.ix := rfl
@[simp] theorem State.shiftReg_iy (f : Byte → Byte × Bool) (r : Reg8) : (s.shiftReg f r).iy = s.iy := rfl
@[simp] theorem State.shiftReg_sp (f : Byte → Byte × Bool) (r : Reg8) : (s.shiftReg f r).sp = s.sp := rfl
@[simp] theorem State.shiftReg_pc (f : Byte → Byte × Bool) (r : Reg8) : (s.shiftReg f r).pc = s.pc := rfl
@[simp] theorem State.shiftReg_i (f : Byte → Byte × Bool) (r : Reg8) : (s.shiftReg f r).i = s.i := rfl
@[simp] theorem State.shiftReg_r (f : Byte → Byte × Bool) (r : Reg8) : (s.shiftReg f r).r = s.r := rfl
@[simp] theorem State.shiftReg_iff1 (f : Byte → Byte × Bool) (r : Reg8) : (s.shiftReg f r).iff1 = s.iff1 := rfl
@[simp] theorem State.shiftReg_iff2 (f : Byte → Byte × Bool) (r : Reg8) : (s.shiftReg f r).iff2 = s.iff2 := rfl
@[simp] theorem State.shiftReg_im (f : Byte → Byte × Bool) (r : Reg8) : (s.shiftReg f r).im = s.im := rfl
@[simp] theorem State.shiftReg_nmiPending (f : Byte → Byte × Bool) (r : Reg8) :
    (s.shiftReg f r).nmiPending = s.nmiPending := rfl
@[simp] theorem State.shiftReg_noSample (f : Byte → Byte × Bool) (r : Reg8) :
    (s.shiftReg f r).noSample = s.noSample := rfl
@[simp] theorem State.shiftReg_halted (f : Byte → Byte × Bool) (r : Reg8) : (s.shiftReg f r).halted = s.halted := rfl
@[simp] theorem State.shiftReg_busGranted (f : Byte → Byte × Bool) (r : Reg8) :
    (s.shiftReg f r).busGranted = s.busGranted := rfl
@[simp] theorem State.shiftReg_mem (f : Byte → Byte × Bool) (r : Reg8) : (s.shiftReg f r).mem = s.mem := rfl
@[simp] theorem State.shiftReg_memMap (f : Byte → Byte × Bool) (r : Reg8) : (s.shiftReg f r).memMap = s.memMap := rfl
@[simp] theorem State.shiftReg_params (f : Byte → Byte × Bool) (r : Reg8) : (s.shiftReg f r).params = s.params := rfl
@[simp] theorem State.shiftReg_devices (f : Byte → Byte × Bool) (r : Reg8) :
    (s.shiftReg f r).devices = s.devices := rfl
@[simp] theorem State.shiftReg_inputs (f : Byte → Byte × Bool) (r : Reg8) : (s.shiftReg f r).inputs = s.inputs := rfl
@[simp] theorem State.shiftReg_ioReplies (f : Byte → Byte × Bool) (r : Reg8) :
    (s.shiftReg f r).ioReplies = s.ioReplies := rfl
@[simp] theorem State.shiftReg_memReplies (f : Byte → Byte × Bool) (r : Reg8) :
    (s.shiftReg f r).memReplies = s.memReplies := rfl
@[simp] theorem State.shiftReg_cycleDma (f : Byte → Byte × Bool) (r : Reg8) :
    (s.shiftReg f r).cycleDma = s.cycleDma := rfl
@[simp] theorem State.shiftReg_busLog (f : Byte → Byte × Bool) (r : Reg8) : (s.shiftReg f r).busLog = s.busLog := rfl
@[simp] theorem State.shiftReg_draws (f : Byte → Byte × Bool) (r : Reg8) : (s.shiftReg f r).draws = s.draws := rfl
@[simp] theorem State.shiftReg_tStates (f : Byte → Byte × Bool) (r : Reg8) :
    (s.shiftReg f r).tStates = s.tStates := rfl

@[simp] theorem State.shiftAt_alt (f : Byte → Byte × Bool) (a : Word) :
    (s.shiftAt f a).alt = s.alt := by simp [State.shiftAt]
@[simp] theorem State.shiftAt_ix (f : Byte → Byte × Bool) (a : Word) :
    (s.shiftAt f a).ix = s.ix := by simp [State.shiftAt]
@[simp] theorem State.shiftAt_iy (f : Byte → Byte × Bool) (a : Word) :
    (s.shiftAt f a).iy = s.iy := by simp [State.shiftAt]
@[simp] theorem State.shiftAt_sp (f : Byte → Byte × Bool) (a : Word) :
    (s.shiftAt f a).sp = s.sp := by simp [State.shiftAt]
@[simp] theorem State.shiftAt_pc (f : Byte → Byte × Bool) (a : Word) :
    (s.shiftAt f a).pc = s.pc := by simp [State.shiftAt]
@[simp] theorem State.shiftAt_i (f : Byte → Byte × Bool) (a : Word) :
    (s.shiftAt f a).i = s.i := by simp [State.shiftAt]
@[simp] theorem State.shiftAt_r (f : Byte → Byte × Bool) (a : Word) :
    (s.shiftAt f a).r = s.r := by simp [State.shiftAt]
@[simp] theorem State.shiftAt_iff1 (f : Byte → Byte × Bool) (a : Word) :
    (s.shiftAt f a).iff1 = s.iff1 := by simp [State.shiftAt]
@[simp] theorem State.shiftAt_iff2 (f : Byte → Byte × Bool) (a : Word) :
    (s.shiftAt f a).iff2 = s.iff2 := by simp [State.shiftAt]
@[simp] theorem State.shiftAt_im (f : Byte → Byte × Bool) (a : Word) :
    (s.shiftAt f a).im = s.im := by simp [State.shiftAt]
@[simp] theorem State.shiftAt_nmiPending (f : Byte → Byte × Bool) (a : Word) :
    (s.shiftAt f a).nmiPending = s.nmiPending := by simp [State.shiftAt]
@[simp] theorem State.shiftAt_noSample (f : Byte → Byte × Bool) (a : Word) :
    (s.shiftAt f a).noSample = s.noSample := by simp [State.shiftAt]
@[simp] theorem State.shiftAt_halted (f : Byte → Byte × Bool) (a : Word) :
    (s.shiftAt f a).halted = s.halted := by simp [State.shiftAt]
@[simp] theorem State.shiftAt_busGranted (f : Byte → Byte × Bool) (a : Word) :
    (s.shiftAt f a).busGranted = s.busGranted := by simp [State.shiftAt]
@[simp] theorem State.shiftAt_memMap (f : Byte → Byte × Bool) (a : Word) :
    (s.shiftAt f a).memMap = s.memMap := by simp [State.shiftAt]
@[simp] theorem State.shiftAt_params (f : Byte → Byte × Bool) (a : Word) :
    (s.shiftAt f a).params = s.params := by simp [State.shiftAt]
@[simp] theorem State.shiftAt_inputs (f : Byte → Byte × Bool) (a : Word) :
    (s.shiftAt f a).inputs = s.inputs := by simp [State.shiftAt]
@[simp] theorem State.shiftAt_tStates (f : Byte → Byte × Bool) (a : Word) :
    (s.shiftAt f a).tStates = s.tStates := by simp [State.shiftAt]

@[simp] theorem State.rotateDigits_alt (digits : Byte → Byte → Byte × Byte) :
    (s.rotateDigits digits).alt = s.alt := by simp [State.rotateDigits]
@[simp] theorem State.rotateDigits_ix (digits : Byte → Byte → Byte × Byte) :
    (s.rotateDigits digits).ix = s.ix := by simp [State.rotateDigits]
@[simp] theorem State.rotateDigits_iy (digits : Byte → Byte → Byte × Byte) :
    (s.rotateDigits digits).iy = s.iy := by simp [State.rotateDigits]
@[simp] theorem State.rotateDigits_sp (digits : Byte → Byte → Byte × Byte) :
    (s.rotateDigits digits).sp = s.sp := by simp [State.rotateDigits]
@[simp] theorem State.rotateDigits_pc (digits : Byte → Byte → Byte × Byte) :
    (s.rotateDigits digits).pc = s.pc := by simp [State.rotateDigits]
@[simp] theorem State.rotateDigits_i (digits : Byte → Byte → Byte × Byte) :
    (s.rotateDigits digits).i = s.i := by simp [State.rotateDigits]
@[simp] theorem State.rotateDigits_r (digits : Byte → Byte → Byte × Byte) :
    (s.rotateDigits digits).r = s.r := by simp [State.rotateDigits]
@[simp] theorem State.rotateDigits_iff1 (digits : Byte → Byte → Byte × Byte) :
    (s.rotateDigits digits).iff1 = s.iff1 := by simp [State.rotateDigits]
@[simp] theorem State.rotateDigits_iff2 (digits : Byte → Byte → Byte × Byte) :
    (s.rotateDigits digits).iff2 = s.iff2 := by simp [State.rotateDigits]
@[simp] theorem State.rotateDigits_im (digits : Byte → Byte → Byte × Byte) :
    (s.rotateDigits digits).im = s.im := by simp [State.rotateDigits]
@[simp] theorem State.rotateDigits_nmiPending (digits : Byte → Byte → Byte × Byte) :
    (s.rotateDigits digits).nmiPending = s.nmiPending := by simp [State.rotateDigits]
@[simp] theorem State.rotateDigits_noSample (digits : Byte → Byte → Byte × Byte) :
    (s.rotateDigits digits).noSample = s.noSample := by simp [State.rotateDigits]
@[simp] theorem State.rotateDigits_halted (digits : Byte → Byte → Byte × Byte) :
    (s.rotateDigits digits).halted = s.halted := by simp [State.rotateDigits]
@[simp] theorem State.rotateDigits_busGranted (digits : Byte → Byte → Byte × Byte) :
    (s.rotateDigits digits).busGranted = s.busGranted := by simp [State.rotateDigits]
@[simp] theorem State.rotateDigits_memMap (digits : Byte → Byte → Byte × Byte) :
    (s.rotateDigits digits).memMap = s.memMap := by simp [State.rotateDigits]
@[simp] theorem State.rotateDigits_params (digits : Byte → Byte → Byte × Byte) :
    (s.rotateDigits digits).params = s.params := by simp [State.rotateDigits]
@[simp] theorem State.rotateDigits_inputs (digits : Byte → Byte → Byte × Byte) :
    (s.rotateDigits digits).inputs = s.inputs := by simp [State.rotateDigits]
@[simp] theorem State.rotateDigits_tStates (digits : Byte → Byte → Byte × Byte) :
    (s.rotateDigits digits).tStates = s.tStates := by simp [State.rotateDigits]

@[simp] theorem State.changeAt_regs (a : Word) (f : Byte → Byte) :
    (s.changeAt a f).regs = s.regs := by simp [State.changeAt]
@[simp] theorem State.changeAt_alt (a : Word) (f : Byte → Byte) :
    (s.changeAt a f).alt = s.alt := by simp [State.changeAt]
@[simp] theorem State.changeAt_ix (a : Word) (f : Byte → Byte) :
    (s.changeAt a f).ix = s.ix := by simp [State.changeAt]
@[simp] theorem State.changeAt_iy (a : Word) (f : Byte → Byte) :
    (s.changeAt a f).iy = s.iy := by simp [State.changeAt]
@[simp] theorem State.changeAt_sp (a : Word) (f : Byte → Byte) :
    (s.changeAt a f).sp = s.sp := by simp [State.changeAt]
@[simp] theorem State.changeAt_pc (a : Word) (f : Byte → Byte) :
    (s.changeAt a f).pc = s.pc := by simp [State.changeAt]
@[simp] theorem State.changeAt_i (a : Word) (f : Byte → Byte) : (s.changeAt a f).i = s.i := by simp [State.changeAt]
@[simp] theorem State.changeAt_r (a : Word) (f : Byte → Byte) : (s.changeAt a f).r = s.r := by simp [State.changeAt]
@[simp] theorem State.changeAt_iff1 (a : Word) (f : Byte → Byte) :
    (s.changeAt a f).iff1 = s.iff1 := by simp [State.changeAt]
@[simp] theorem State.changeAt_iff2 (a : Word) (f : Byte → Byte) :
    (s.changeAt a f).iff2 = s.iff2 := by simp [State.changeAt]
@[simp] theorem State.changeAt_im (a : Word) (f : Byte → Byte) :
    (s.changeAt a f).im = s.im := by simp [State.changeAt]
@[simp] theorem State.changeAt_nmiPending (a : Word) (f : Byte → Byte) :
    (s.changeAt a f).nmiPending = s.nmiPending := by simp [State.changeAt]
@[simp] theorem State.changeAt_noSample (a : Word) (f : Byte → Byte) :
    (s.changeAt a f).noSample = s.noSample := by simp [State.changeAt]
@[simp] theorem State.changeAt_halted (a : Word) (f : Byte → Byte) :
    (s.changeAt a f).halted = s.halted := by simp [State.changeAt]
@[simp] theorem State.changeAt_busGranted (a : Word) (f : Byte → Byte) :
    (s.changeAt a f).busGranted = s.busGranted := by simp [State.changeAt]
@[simp] theorem State.changeAt_memMap (a : Word) (f : Byte → Byte) :
    (s.changeAt a f).memMap = s.memMap := by simp [State.changeAt]
@[simp] theorem State.changeAt_params (a : Word) (f : Byte → Byte) :
    (s.changeAt a f).params = s.params := by simp [State.changeAt]
@[simp] theorem State.changeAt_inputs (a : Word) (f : Byte → Byte) :
    (s.changeAt a f).inputs = s.inputs := by simp [State.changeAt]
@[simp] theorem State.changeAt_tStates (a : Word) (f : Byte → Byte) :
    (s.changeAt a f).tStates = s.tStates := by simp [State.changeAt]

@[simp] theorem State.bitTest_alt (bit : Bool) : (s.bitTest bit).alt = s.alt := rfl
@[simp] theorem State.bitTest_ix (bit : Bool) : (s.bitTest bit).ix = s.ix := rfl
@[simp] theorem State.bitTest_iy (bit : Bool) : (s.bitTest bit).iy = s.iy := rfl
@[simp] theorem State.bitTest_sp (bit : Bool) : (s.bitTest bit).sp = s.sp := rfl
@[simp] theorem State.bitTest_pc (bit : Bool) : (s.bitTest bit).pc = s.pc := rfl
@[simp] theorem State.bitTest_i (bit : Bool) : (s.bitTest bit).i = s.i := rfl
@[simp] theorem State.bitTest_r (bit : Bool) : (s.bitTest bit).r = s.r := rfl
@[simp] theorem State.bitTest_iff1 (bit : Bool) : (s.bitTest bit).iff1 = s.iff1 := rfl
@[simp] theorem State.bitTest_iff2 (bit : Bool) : (s.bitTest bit).iff2 = s.iff2 := rfl
@[simp] theorem State.bitTest_im (bit : Bool) : (s.bitTest bit).im = s.im := rfl
@[simp] theorem State.bitTest_nmiPending (bit : Bool) : (s.bitTest bit).nmiPending = s.nmiPending := rfl
@[simp] theorem State.bitTest_noSample (bit : Bool) : (s.bitTest bit).noSample = s.noSample := rfl
@[simp] theorem State.bitTest_halted (bit : Bool) : (s.bitTest bit).halted = s.halted := rfl
@[simp] theorem State.bitTest_busGranted (bit : Bool) : (s.bitTest bit).busGranted = s.busGranted := rfl
@[simp] theorem State.bitTest_mem (bit : Bool) : (s.bitTest bit).mem = s.mem := rfl
@[simp] theorem State.bitTest_memMap (bit : Bool) : (s.bitTest bit).memMap = s.memMap := rfl
@[simp] theorem State.bitTest_params (bit : Bool) : (s.bitTest bit).params = s.params := rfl
@[simp] theorem State.bitTest_devices (bit : Bool) : (s.bitTest bit).devices = s.devices := rfl
@[simp] theorem State.bitTest_inputs (bit : Bool) : (s.bitTest bit).inputs = s.inputs := rfl
@[simp] theorem State.bitTest_ioReplies (bit : Bool) : (s.bitTest bit).ioReplies = s.ioReplies := rfl
@[simp] theorem State.bitTest_memReplies (bit : Bool) : (s.bitTest bit).memReplies = s.memReplies := rfl
@[simp] theorem State.bitTest_cycleDma (bit : Bool) : (s.bitTest bit).cycleDma = s.cycleDma := rfl
@[simp] theorem State.bitTest_busLog (bit : Bool) : (s.bitTest bit).busLog = s.busLog := rfl
@[simp] theorem State.bitTest_tStates (bit : Bool) : (s.bitTest bit).tStates = s.tStates := rfl

/-! ### InOut -/

@[simp] theorem State.inputTo_alt (d : InDest) : (s.inputTo d).alt = s.alt := by cases d <;> simp [State.inputTo]
@[simp] theorem State.inputTo_ix (d : InDest) : (s.inputTo d).ix = s.ix := by cases d <;> simp [State.inputTo]
@[simp] theorem State.inputTo_iy (d : InDest) : (s.inputTo d).iy = s.iy := by cases d <;> simp [State.inputTo]
@[simp] theorem State.inputTo_sp (d : InDest) : (s.inputTo d).sp = s.sp := by cases d <;> simp [State.inputTo]
@[simp] theorem State.inputTo_pc (d : InDest) : (s.inputTo d).pc = s.pc := by cases d <;> simp [State.inputTo]
@[simp] theorem State.inputTo_i (d : InDest) : (s.inputTo d).i = s.i := by cases d <;> simp [State.inputTo]
@[simp] theorem State.inputTo_r (d : InDest) : (s.inputTo d).r = s.r := by cases d <;> simp [State.inputTo]
@[simp] theorem State.inputTo_iff1 (d : InDest) : (s.inputTo d).iff1 = s.iff1 := by cases d <;> simp [State.inputTo]
@[simp] theorem State.inputTo_iff2 (d : InDest) : (s.inputTo d).iff2 = s.iff2 := by cases d <;> simp [State.inputTo]
@[simp] theorem State.inputTo_im (d : InDest) : (s.inputTo d).im = s.im := by cases d <;> simp [State.inputTo]
@[simp] theorem State.inputTo_nmiPending (d : InDest) :
    (s.inputTo d).nmiPending = s.nmiPending := by cases d <;> simp [State.inputTo]
@[simp] theorem State.inputTo_noSample (d : InDest) :
    (s.inputTo d).noSample = s.noSample := by cases d <;> simp [State.inputTo]
@[simp] theorem State.inputTo_halted (d : InDest) :
    (s.inputTo d).halted = s.halted := by cases d <;> simp [State.inputTo]
@[simp] theorem State.inputTo_busGranted (d : InDest) :
    (s.inputTo d).busGranted = s.busGranted := by cases d <;> simp [State.inputTo]
@[simp] theorem State.inputTo_memMap (d : InDest) :
    (s.inputTo d).memMap = s.memMap := by cases d <;> simp [State.inputTo]
@[simp] theorem State.inputTo_params (d : InDest) :
    (s.inputTo d).params = s.params := by cases d <;> simp [State.inputTo]
@[simp] theorem State.inputTo_inputs (d : InDest) :
    (s.inputTo d).inputs = s.inputs := by cases d <;> simp [State.inputTo]
@[simp] theorem State.inputTo_tStates (d : InDest) :
    (s.inputTo d).tStates = s.tStates := by cases d <;> simp [State.inputTo]

@[simp] theorem State.blockIoDone_alt (up : Bool) : (s.blockIoDone up).alt = s.alt := rfl
@[simp] theorem State.blockIoDone_ix (up : Bool) : (s.blockIoDone up).ix = s.ix := rfl
@[simp] theorem State.blockIoDone_iy (up : Bool) : (s.blockIoDone up).iy = s.iy := rfl
@[simp] theorem State.blockIoDone_sp (up : Bool) : (s.blockIoDone up).sp = s.sp := rfl
@[simp] theorem State.blockIoDone_pc (up : Bool) : (s.blockIoDone up).pc = s.pc := rfl
@[simp] theorem State.blockIoDone_i (up : Bool) : (s.blockIoDone up).i = s.i := rfl
@[simp] theorem State.blockIoDone_r (up : Bool) : (s.blockIoDone up).r = s.r := rfl
@[simp] theorem State.blockIoDone_iff1 (up : Bool) : (s.blockIoDone up).iff1 = s.iff1 := rfl
@[simp] theorem State.blockIoDone_iff2 (up : Bool) : (s.blockIoDone up).iff2 = s.iff2 := rfl
@[simp] theorem State.blockIoDone_im (up : Bool) : (s.blockIoDone up).im = s.im := rfl
@[simp] theorem State.blockIoDone_nmiPending (up : Bool) : (s.blockIoDone up).nmiPending = s.nmiPending := rfl
@[simp] theorem State.blockIoDone_noSample (up : Bool) : (s.blockIoDone up).noSample = s.noSample := rfl
@[simp] theorem State.blockIoDone_halted (up : Bool) : (s.blockIoDone up).halted = s.halted := rfl
@[simp] theorem State.blockIoDone_busGranted (up : Bool) : (s.blockIoDone up).busGranted = s.busGranted := rfl
@[simp] theorem State.blockIoDone_mem (up : Bool) : (s.blockIoDone up).mem = s.mem := rfl
@[simp] theorem State.blockIoDone_memMap (up : Bool) : (s.blockIoDone up).memMap = s.memMap := rfl
@[simp] theorem State.blockIoDone_params (up : Bool) : (s.blockIoDone up).params = s.params := rfl
@[simp] theorem State.blockIoDone_devices (up : Bool) : (s.blockIoDone up).devices = s.devices := rfl
@[simp] theorem State.blockIoDone_inputs (up : Bool) : (s.blockIoDone up).inputs = s.inputs := rfl
@[simp] theorem State.blockIoDone_ioReplies (up : Bool) : (s.blockIoDone up).ioReplies = s.ioReplies := rfl
@[simp] theorem State.blockIoDone_memReplies (up : Bool) : (s.blockIoDone up).memReplies = s.memReplies := rfl
@[simp] theorem State.blockIoDone_cycleDma (up : Bool) : (s.blockIoDone up).cycleDma = s.cycleDma := rfl
@[simp] theorem State.blockIoDone_busLog (up : Bool) : (s.blockIoDone up).busLog = s.busLog := rfl
@[simp] theorem State.blockIoDone_tStates (up : Bool) : (s.blockIoDone up).tStates = s.tStates := rfl

@[simp] theorem State.inputStep_alt (up : Bool) : (s.inputStep up).alt = s.alt := by simp [State.inputStep]
@[simp] theorem State.inputStep_ix (up : Bool) : (s.inputStep up).ix = s.ix := by simp [State.inputStep]
@[simp] theorem State.inputStep_iy (up : Bool) : (s.inputStep up).iy = s.iy := by simp [State.inputStep]
@[simp] theorem State.inputStep_sp (up : Bool) : (s.inputStep up).sp = s.sp := by simp [State.inputStep]
@[simp] theorem State.inputStep_pc (up : Bool) : (s.inputStep up).pc = s.pc := by simp [State.inputStep]
@[simp] theorem State.inputStep_i (up : Bool) : (s.inputStep up).i = s.i := by simp [State.inputStep]
@[simp] theorem State.inputStep_r (up : Bool) : (s.inputStep up).r = s.r := by simp [State.inputStep]
@[simp] theorem State.inputStep_iff1 (up : Bool) : (s.inputStep up).iff1 = s.iff1 := by simp [State.inputStep]
@[simp] theorem State.inputStep_iff2 (up : Bool) : (s.inputStep up).iff2 = s.iff2 := by simp [State.inputStep]
@[simp] theorem State.inputStep_im (up : Bool) : (s.inputStep up).im = s.im := by simp [State.inputStep]
@[simp] theorem State.inputStep_nmiPending (up : Bool) :
    (s.inputStep up).nmiPending = s.nmiPending := by simp [State.inputStep]
@[simp] theorem State.inputStep_noSample (up : Bool) :
    (s.inputStep up).noSample = s.noSample := by simp [State.inputStep]
@[simp] theorem State.inputStep_halted (up : Bool) : (s.inputStep up).halted = s.halted := by simp [State.inputStep]
@[simp] theorem State.inputStep_busGranted (up : Bool) :
    (s.inputStep up).busGranted = s.busGranted := by simp [State.inputStep]
@[simp] theorem State.inputStep_memMap (up : Bool) : (s.inputStep up).memMap = s.memMap := by simp [State.inputStep]
@[simp] theorem State.inputStep_params (up : Bool) : (s.inputStep up).params = s.params := by simp [State.inputStep]
@[simp] theorem State.inputStep_inputs (up : Bool) : (s.inputStep up).inputs = s.inputs := by simp [State.inputStep]
@[simp] theorem State.inputStep_tStates (up : Bool) :
    (s.inputStep up).tStates = s.tStates := by simp [State.inputStep]

@[simp] theorem State.outputStep_alt (up : Bool) : (s.outputStep up).alt = s.alt := by simp [State.outputStep]
@[simp] theorem State.outputStep_ix (up : Bool) : (s.outputStep up).ix = s.ix := by simp [State.outputStep]
@[simp] theorem State.outputStep_iy (up : Bool) : (s.outputStep up).iy = s.iy := by simp [State.outputStep]
@[simp] theorem State.outputStep_sp (up : Bool) : (s.outputStep up).sp = s.sp := by simp [State.outputStep]
@[simp] theorem State.outputStep_pc (up : Bool) : (s.outputStep up).pc = s.pc := by simp [State.outputStep]
@[simp] theorem State.outputStep_i (up : Bool) : (s.outputStep up).i = s.i := by simp [State.outputStep]
@[simp] theorem State.outputStep_r (up : Bool) : (s.outputStep up).r = s.r := by simp [State.outputStep]
@[simp] theorem State.outputStep_iff1 (up : Bool) : (s.outputStep up).iff1 = s.iff1 := by simp [State.outputStep]
@[simp] theorem State.outputStep_iff2 (up : Bool) : (s.outputStep up).iff2 = s.iff2 := by simp [State.outputStep]
@[simp] theorem State.outputStep_im (up : Bool) : (s.outputStep up).im = s.im := by simp [State.outputStep]
@[simp] theorem State.outputStep_nmiPending (up : Bool) :
    (s.outputStep up).nmiPending = s.nmiPending := by simp [State.outputStep]
@[simp] theorem State.outputStep_noSample (up : Bool) :
    (s.outputStep up).noSample = s.noSample := by simp [State.outputStep]
@[simp] theorem State.outputStep_halted (up : Bool) :
    (s.outputStep up).halted = s.halted := by simp [State.outputStep]
@[simp] theorem State.outputStep_busGranted (up : Bool) :
    (s.outputStep up).busGranted = s.busGranted := by simp [State.outputStep]
@[simp] theorem State.outputStep_memMap (up : Bool) :
    (s.outputStep up).memMap = s.memMap := by simp [State.outputStep]
@[simp] theorem State.outputStep_params (up : Bool) :
    (s.outputStep up).params = s.params := by simp [State.outputStep]
@[simp] theorem State.outputStep_inputs (up : Bool) :
    (s.outputStep up).inputs = s.inputs := by simp [State.outputStep]
@[simp] theorem State.outputStep_tStates (up : Bool) :
    (s.outputStep up).tStates = s.tStates := by simp [State.outputStep]

@[simp] theorem State.repeatIo_regs : (s.repeatIo).regs = s.regs := by unfold State.repeatIo; split <;> rfl
@[simp] theorem State.repeatIo_alt : (s.repeatIo).alt = s.alt := by unfold State.repeatIo; split <;> rfl
@[simp] theorem State.repeatIo_ix : (s.repeatIo).ix = s.ix := by unfold State.repeatIo; split <;> rfl
@[simp] theorem State.repeatIo_iy : (s.repeatIo).iy = s.iy := by unfold State.repeatIo; split <;> rfl
@[simp] theorem State.repeatIo_sp : (s.repeatIo).sp = s.sp := by unfold State.repeatIo; split <;> rfl
@[simp] theorem State.repeatIo_i : (s.repeatIo).i = s.i := by unfold State.repeatIo; split <;> rfl
@[simp] theorem State.repeatIo_r : (s.repeatIo).r = s.r := by unfold State.repeatIo; split <;> rfl
@[simp] theorem State.repeatIo_iff1 : (s.repeatIo).iff1 = s.iff1 := by unfold State.repeatIo; split <;> rfl
@[simp] theorem State.repeatIo_iff2 : (s.repeatIo).iff2 = s.iff2 := by unfold State.repeatIo; split <;> rfl
@[simp] theorem State.repeatIo_im : (s.repeatIo).im = s.im := by unfold State.repeatIo; split <;> rfl
@[simp] theorem State.repeatIo_nmiPending :
    (s.repeatIo).nmiPending = s.nmiPending := by unfold State.repeatIo; split <;> rfl
@[simp] theorem State.repeatIo_noSample :
    (s.repeatIo).noSample = s.noSample := by unfold State.repeatIo; split <;> rfl
@[simp] theorem State.repeatIo_halted : (s.repeatIo).halted = s.halted := by unfold State.repeatIo; split <;> rfl
@[simp] theorem State.repeatIo_busGranted :
    (s.repeatIo).busGranted = s.busGranted := by unfold State.repeatIo; split <;> rfl
@[simp] theorem State.repeatIo_mem : (s.repeatIo).mem = s.mem := by unfold State.repeatIo; split <;> rfl
@[simp] theorem State.repeatIo_memMap : (s.repeatIo).memMap = s.memMap := by unfold State.repeatIo; split <;> rfl
@[simp] theorem State.repeatIo_params : (s.repeatIo).params = s.params := by unfold State.repeatIo; split <;> rfl
@[simp] theorem State.repeatIo_devices : (s.repeatIo).devices = s.devices := by unfold State.repeatIo; split <;> rfl
@[simp] theorem State.repeatIo_inputs : (s.repeatIo).inputs = s.inputs := by unfold State.repeatIo; split <;> rfl
@[simp] theorem State.repeatIo_ioReplies :
    (s.repeatIo).ioReplies = s.ioReplies := by unfold State.repeatIo; split <;> rfl
@[simp] theorem State.repeatIo_memReplies :
    (s.repeatIo).memReplies = s.memReplies := by unfold State.repeatIo; split <;> rfl
@[simp] theorem State.repeatIo_cycleDma :
    (s.repeatIo).cycleDma = s.cycleDma := by unfold State.repeatIo; split <;> rfl
@[simp] theorem State.repeatIo_busLog : (s.repeatIo).busLog = s.busLog := by unfold State.repeatIo; split <;> rfl
@[simp] theorem State.repeatIo_draws : (s.repeatIo).draws = s.draws := by unfold State.repeatIo; split <;> rfl
@[simp] theorem State.repeatIo_tStates : (s.repeatIo).tStates = s.tStates := by unfold State.repeatIo; split <;> rfl

end Sys2Proof.Machine
end

