-- ==== Sys2Proof/Tests/Slice0.lean ====
section
/-! SUPPORT. The model's own tests: the WellFormed smoke; the decoder on words written out from the encodings of
spec/opcode_table.json; single steps from spec/95_test_vectors.md, whose row is in each theorem's name; and one
witness for each obligation that has hypotheses. -/

open Sys2Proof Sys2Proof.Machine

namespace Sys2Proof.Tests

/-! ### WellFormed (30_encoding.md R101) -/

theorem test_wf_rst_refuses_a_low_bit : WellFormed (.rst 0x01#8) = false := by decide
theorem test_wf_rst_refuses_a_high_bit : WellFormed (.rst 0x40#8) = false := by decide
theorem test_wf_rst_accepts_38 : WellFormed (.rst 0x38#8) = true := by decide

/-! ### Decoding: the bytes of each row, bit by bit, with r = D (010), r' = E (011), dd and ss = DE (01), qq = AF (11),
pp = IX (10), rr = IY (10), b = 5 (101), cc = PE (101), t = 011, d = 85H, n = 3CH, e = FEH, nn = 1234H -/

/-- Bytes, and the instruction they are. -/
abbrev Words := List (List Byte × Instr)

/-- The bytes, and nothing more, are the instruction. -/
def reads (p : List Byte × Instr) : Bool :=
  match decode p.1 with
  | .ok (i, rest) => i == p.2 && rest.isEmpty
  | .error _ => false

theorem test_decode_load8 :
    ([([0b01010011#8], .ldRegReg .d .e), ([0b00010110#8, 0b00111100#8], .ldRegImm .d 0x3C#8),
      ([0b01010110#8], .ldRegMemHl .d), ([0b11011101#8, 0b01010110#8, 0b10000101#8], .ldRegMemIx .d 0x85#8),
      ([0b11111101#8, 0b01010110#8, 0b10000101#8], .ldRegMemIy .d 0x85#8), ([0b01110010#8], .ldMemHlReg .d),
      ([0b11011101#8, 0b01110010#8, 0b10000101#8], .ldMemIxReg 0x85#8 .d),
      ([0b11111101#8, 0b01110010#8, 0b10000101#8], .ldMemIyReg 0x85#8 .d),
      ([0b00110110#8, 0b00111100#8], .ldMemHlImm 0x3C#8),
      ([0b11011101#8, 0b00110110#8, 0b10000101#8, 0b00111100#8], .ldMemIxImm 0x85#8 0x3C#8),
      ([0b11111101#8, 0b00110110#8, 0b10000101#8, 0b00111100#8], .ldMemIyImm 0x85#8 0x3C#8),
      ([0b00001010#8], .ldAMemBc), ([0b00011010#8], .ldAMemDe),
      ([0b00111010#8, 0b00110100#8, 0b00010010#8], .ldAMemNn 0x1234#16), ([0b00000010#8], .ldMemBcA),
      ([0b00010010#8], .ldMemDeA), ([0b00110010#8, 0b00110100#8, 0b00010010#8], .ldMemNnA 0x1234#16),
      ([0b11101101#8, 0b01010111#8], .ldAI), ([0b11101101#8, 0b01011111#8], .ldAR),
      ([0b11101101#8, 0b01000111#8], .ldIA), ([0b11101101#8, 0b01001111#8], .ldRA)] : Words).all reads = true := by decide

theorem test_decode_load16 :
    ([([0b00010001#8, 0b00110100#8, 0b00010010#8], .ldPairImm .de 0x1234#16),
      ([0b11011101#8, 0b00100001#8, 0b00110100#8, 0b00010010#8], .ldIxImm 0x1234#16),
      ([0b11111101#8, 0b00100001#8, 0b00110100#8, 0b00010010#8], .ldIyImm 0x1234#16),
      ([0b00101010#8, 0b00110100#8, 0b00010010#8], .ldHlMemNn 0x1234#16),
      ([0b11101101#8, 0b01011011#8, 0b00110100#8, 0b00010010#8], .ldPairMemNn .de 0x1234#16),
      ([0b11011101#8, 0b00101010#8, 0b00110100#8, 0b00010010#8], .ldIxMemNn 0x1234#16),
      ([0b11111101#8, 0b00101010#8, 0b00110100#8, 0b00010010#8], .ldIyMemNn 0x1234#16),
      ([0b00100010#8, 0b00110100#8, 0b00010010#8], .ldMemNnHl 0x1234#16),
      ([0b11101101#8, 0b01010011#8, 0b00110100#8, 0b00010010#8], .ldMemNnPair 0x1234#16 .de),
      ([0b11011101#8, 0b00100010#8, 0b00110100#8, 0b00010010#8], .ldMemNnIx 0x1234#16),
      ([0b11111101#8, 0b00100010#8, 0b00110100#8, 0b00010010#8], .ldMemNnIy 0x1234#16),
      ([0b11111001#8], .ldSpHl), ([0b11011101#8, 0b11111001#8], .ldSpIx),
      ([0b11111101#8, 0b11111001#8], .ldSpIy), ([0b11110101#8], .pushPair .af),
      ([0b11011101#8, 0b11100101#8], .pushIx), ([0b11111101#8, 0b11100101#8], .pushIy),
      ([0b11110001#8], .popPair .af), ([0b11011101#8, 0b11100001#8], .popIx),
      ([0b11111101#8, 0b11100001#8], .popIy)] : Words).all reads = true := by decide

theorem test_decode_exchange :
    ([([0b11101011#8], .exDeHl), ([0b00001000#8], .exAfAf), ([0b11011001#8], .exx),
      ([0b11100011#8], .exMemSpHl), ([0b11011101#8, 0b11100011#8], .exMemSpIx),
      ([0b11111101#8, 0b11100011#8], .exMemSpIy), ([0b11101101#8, 0b10100000#8], .ldi),
      ([0b11101101#8, 0b10110000#8], .ldir), ([0b11101101#8, 0b10101000#8], .ldd),
      ([0b11101101#8, 0b10111000#8], .lddr), ([0b11101101#8, 0b10100001#8], .cpi),
      ([0b11101101#8, 0b10110001#8], .cpir), ([0b11101101#8, 0b10101001#8], .cpd),
      ([0b11101101#8, 0b10111001#8], .cpdr)] : Words).all reads = true := by decide

theorem test_decode_alu8_1 :
    ([([0b10000010#8], .addReg .d), ([0b11000110#8, 0b00111100#8], .addImm 0x3C#8), ([0b10000110#8], .addMemHl),
      ([0b11011101#8, 0b10000110#8, 0b10000101#8], .addMemIx 0x85#8),
      ([0b11111101#8, 0b10000110#8, 0b10000101#8], .addMemIy 0x85#8), ([0b10001010#8], .adcReg .d),
      ([0b11001110#8, 0b00111100#8], .adcImm 0x3C#8), ([0b10001110#8], .adcMemHl),
      ([0b11011101#8, 0b10001110#8, 0b10000101#8], .adcMemIx 0x85#8),
      ([0b11111101#8, 0b10001110#8, 0b10000101#8], .adcMemIy 0x85#8), ([0b10010010#8], .subReg .d),
      ([0b11010110#8, 0b00111100#8], .subImm 0x3C#8), ([0b10010110#8], .subMemHl),
      ([0b11011101#8, 0b10010110#8, 0b10000101#8], .subMemIx 0x85#8),
      ([0b11111101#8, 0b10010110#8, 0b10000101#8], .subMemIy 0x85#8), ([0b10011010#8], .sbcReg .d),
      ([0b11011110#8, 0b00111100#8], .sbcImm 0x3C#8), ([0b10011110#8], .sbcMemHl),
      ([0b11011101#8, 0b10011110#8, 0b10000101#8], .sbcMemIx 0x85#8),
      ([0b11111101#8, 0b10011110#8, 0b10000101#8], .sbcMemIy 0x85#8), ([0b10100010#8], .andReg .d),
      ([0b11100110#8, 0b00111100#8], .andImm 0x3C#8), ([0b10100110#8], .andMemHl),
      ([0b11011101#8, 0b10100110#8, 0b10000101#8], .andMemIx 0x85#8)] : Words).all reads = true := by decide

theorem test_decode_alu8_2 :
    ([([0b11111101#8, 0b10100110#8, 0b10000101#8], .andMemIy 0x85#8), ([0b10110010#8], .orReg .d),
      ([0b11110110#8, 0b00111100#8], .orImm 0x3C#8), ([0b10110110#8], .orMemHl),
      ([0b11011101#8, 0b10110110#8, 0b10000101#8], .orMemIx 0x85#8),
      ([0b11111101#8, 0b10110110#8, 0b10000101#8], .orMemIy 0x85#8), ([0b10101010#8], .xorReg .d),
      ([0b11101110#8, 0b00111100#8], .xorImm 0x3C#8), ([0b10101110#8], .xorMemHl),
      ([0b11011101#8, 0b10101110#8, 0b10000101#8], .xorMemIx 0x85#8),
      ([0b11111101#8, 0b10101110#8, 0b10000101#8], .xorMemIy 0x85#8), ([0b10111010#8], .cpReg .d),
      ([0b11111110#8, 0b00111100#8], .cpImm 0x3C#8), ([0b10111110#8], .cpMemHl),
      ([0b11011101#8, 0b10111110#8, 0b10000101#8], .cpMemIx 0x85#8),
      ([0b11111101#8, 0b10111110#8, 0b10000101#8], .cpMemIy 0x85#8), ([0b00010100#8], .incReg .d),
      ([0b00110100#8], .incMemHl), ([0b11011101#8, 0b00110100#8, 0b10000101#8], .incMemIx 0x85#8),
      ([0b11111101#8, 0b00110100#8, 0b10000101#8], .incMemIy 0x85#8), ([0b00010101#8], .decReg .d),
      ([0b00110101#8], .decMemHl), ([0b11011101#8, 0b00110101#8, 0b10000101#8], .decMemIx 0x85#8),
      ([0b11111101#8, 0b00110101#8, 0b10000101#8], .decMemIy 0x85#8)] : Words).all reads = true := by decide

theorem test_decode_control :
    ([([0b00100111#8], .daa), ([0b00101111#8], .cpl), ([0b11101101#8, 0b01000100#8], .neg),
      ([0b00111111#8], .ccf), ([0b00110111#8], .scf), ([0b00000000#8], .nop), ([0b01110110#8], .halt),
      ([0b11110011#8], .di), ([0b11111011#8], .ei), ([0b11101101#8, 0b01000110#8], .im0),
      ([0b11101101#8, 0b01010110#8], .im1), ([0b11101101#8, 0b01011110#8], .im2)] : Words).all reads = true := by decide

theorem test_decode_arith16 :
    ([([0b00011001#8], .addHlPair .de), ([0b11101101#8, 0b01011010#8], .adcHlPair .de),
      ([0b11101101#8, 0b01010010#8], .sbcHlPair .de), ([0b11011101#8, 0b00101001#8], .addIxPair .ix),
      ([0b11111101#8, 0b00101001#8], .addIyPair .iy), ([0b00010011#8], .incPair .de),
      ([0b11011101#8, 0b00100011#8], .incIx), ([0b11111101#8, 0b00100011#8], .incIy),
      ([0b00011011#8], .decPair .de), ([0b11011101#8, 0b00101011#8], .decIx),
      ([0b11111101#8, 0b00101011#8], .decIy)] : Words).all reads = true := by decide

theorem test_decode_rotate_1 :
    ([([0b00000111#8], .rlca), ([0b00010111#8], .rla), ([0b00001111#8], .rrca), ([0b00011111#8], .rra),
      ([0b11001011#8, 0b00000010#8], .rlcReg .d), ([0b11001011#8, 0b00000110#8], .rlcMemHl),
      ([0b11011101#8, 0b11001011#8, 0b10000101#8, 0b00000110#8], .rlcMemIx 0x85#8),
      ([0b11111101#8, 0b11001011#8, 0b10000101#8, 0b00000110#8], .rlcMemIy 0x85#8),
      ([0b11001011#8, 0b00010010#8], .rlReg .d), ([0b11001011#8, 0b00010110#8], .rlMemHl),
      ([0b11011101#8, 0b11001011#8, 0b10000101#8, 0b00010110#8], .rlMemIx 0x85#8),
      ([0b11111101#8, 0b11001011#8, 0b10000101#8, 0b00010110#8], .rlMemIy 0x85#8),
      ([0b11001011#8, 0b00001010#8], .rrcReg .d), ([0b11001011#8, 0b00001110#8], .rrcMemHl),
      ([0b11011101#8, 0b11001011#8, 0b10000101#8, 0b00001110#8], .rrcMemIx 0x85#8),
      ([0b11111101#8, 0b11001011#8, 0b10000101#8, 0b00001110#8], .rrcMemIy 0x85#8),
      ([0b11001011#8, 0b00011010#8], .rrReg .d), ([0b11001011#8, 0b00011110#8], .rrMemHl),
      ([0b11011101#8, 0b11001011#8, 0b10000101#8, 0b00011110#8], .rrMemIx 0x85#8),
      ([0b11111101#8, 0b11001011#8, 0b10000101#8, 0b00011110#8], .rrMemIy 0x85#8),
      ([0b11001011#8, 0b00100010#8], .slaReg .d), ([0b11001011#8, 0b00100110#8], .slaMemHl),
      ([0b11011101#8, 0b11001011#8, 0b10000101#8, 0b00100110#8], .slaMemIx 0x85#8),
      ([0b11111101#8, 0b11001011#8, 0b10000101#8, 0b00100110#8], .slaMemIy 0x85#8)] : Words).all reads = true := by decide

theorem test_decode_rotate_2 :
    ([([0b11001011#8, 0b00101010#8], .sraReg .d), ([0b11001011#8, 0b00101110#8], .sraMemHl),
      ([0b11011101#8, 0b11001011#8, 0b10000101#8, 0b00101110#8], .sraMemIx 0x85#8),
      ([0b11111101#8, 0b11001011#8, 0b10000101#8, 0b00101110#8], .sraMemIy 0x85#8),
      ([0b11001011#8, 0b00111010#8], .srlReg .d), ([0b11001011#8, 0b00111110#8], .srlMemHl),
      ([0b11011101#8, 0b11001011#8, 0b10000101#8, 0b00111110#8], .srlMemIx 0x85#8),
      ([0b11111101#8, 0b11001011#8, 0b10000101#8, 0b00111110#8], .srlMemIy 0x85#8),
      ([0b11101101#8, 0b01101111#8], .rld), ([0b11101101#8, 0b01100111#8], .rrd)] : Words).all reads = true := by decide

theorem test_decode_bit :
    ([([0b11001011#8, 0b01101010#8], .bitReg 5#3 .d), ([0b11001011#8, 0b01101110#8], .bitMemHl 5#3),
      ([0b11011101#8, 0b11001011#8, 0b10000101#8, 0b01101110#8], .bitMemIx 5#3 0x85#8),
      ([0b11111101#8, 0b11001011#8, 0b10000101#8, 0b01101110#8], .bitMemIy 5#3 0x85#8),
      ([0b11001011#8, 0b11101010#8], .setReg 5#3 .d), ([0b11001011#8, 0b11101110#8], .setMemHl 5#3),
      ([0b11011101#8, 0b11001011#8, 0b10000101#8, 0b11101110#8], .setMemIx 5#3 0x85#8),
      ([0b11111101#8, 0b11001011#8, 0b10000101#8, 0b11101110#8], .setMemIy 5#3 0x85#8),
      ([0b11001011#8, 0b10101010#8], .resReg 5#3 .d), ([0b11001011#8, 0b10101110#8], .resMemHl 5#3),
      ([0b11011101#8, 0b11001011#8, 0b10000101#8, 0b10101110#8], .resMemIx 5#3 0x85#8),
      ([0b11111101#8, 0b11001011#8, 0b10000101#8, 0b10101110#8], .resMemIy 5#3 0x85#8)] : Words).all reads = true := by decide

theorem test_decode_jump :
    ([([0b11000011#8, 0b00110100#8, 0b00010010#8], .jp 0x1234#16),
      ([0b11101010#8, 0b00110100#8, 0b00010010#8], .jpCond .pe 0x1234#16),
      ([0b00011000#8, 0b11111110#8], .jr 0xFE#8), ([0b00111000#8, 0b11111110#8], .jrC 0xFE#8),
      ([0b00110000#8, 0b11111110#8], .jrNc 0xFE#8), ([0b00101000#8, 0b11111110#8], .jrZ 0xFE#8),
      ([0b00100000#8, 0b11111110#8], .jrNz 0xFE#8), ([0b11101001#8], .jpHl),
      ([0b11011101#8, 0b11101001#8], .jpIx), ([0b11111101#8, 0b11101001#8], .jpIy),
      ([0b00010000#8, 0b11111110#8], .djnz 0xFE#8),
      ([0b11001101#8, 0b00110100#8, 0b00010010#8], .call 0x1234#16),
      ([0b11101100#8, 0b00110100#8, 0b00010010#8], .callCond .pe 0x1234#16), ([0b11001001#8], .ret),
      ([0b11101000#8], .retCond .pe), ([0b11101101#8, 0b01001101#8], .reti),
      ([0b11101101#8, 0b01000101#8], .retn), ([0b11011111#8], .rst 0x18#8)] : Words).all reads = true := by decide

theorem test_decode_inout :
    ([([0b11011011#8, 0b00111100#8], .inAImm 0x3C#8), ([0b11101101#8, 0b01010000#8], .inRegC (.reg .d)),
      ([0b11101101#8, 0b10100010#8], .ini), ([0b11101101#8, 0b10110010#8], .inir),
      ([0b11101101#8, 0b10101010#8], .ind), ([0b11101101#8, 0b10111010#8], .indr),
      ([0b11010011#8, 0b00111100#8], .outImmA 0x3C#8), ([0b11101101#8, 0b01010001#8], .outCReg .d),
      ([0b11101101#8, 0b10100011#8], .outi), ([0b11101101#8, 0b10110011#8], .otir),
      ([0b11101101#8, 0b10101011#8], .outd), ([0b11101101#8, 0b10111011#8], .otdr)] : Words).all reads = true := by decide

/-! Sequences of no row (30_encoding.md R120), from the list in spec/95_test_vectors.md. -/

/-- The bytes, with zeros after them, are no instruction. -/
def unread (bs : List Byte) : Bool :=
  match decode (bs ++ [0#8, 0#8, 0#8]) with
  | .ok _ => false
  | .error _ => true

theorem test_decode_refuses_undefined :
    ([[0xCB#8, 0x30#8], [0xCB#8, 0x37#8], [0xDD#8, 0xCB#8, 0x05#8, 0x36#8], [0xDD#8, 0xCB#8, 0x05#8, 0x00#8],
      [0xFD#8, 0xCB#8, 0x05#8, 0xC7#8], [0xDD#8, 0x00#8], [0xFD#8, 0x44#8], [0xDD#8, 0xDD#8], [0xFD#8, 0xED#8],
      [0xDD#8, 0x76#8], [0xDD#8, 0xEB#8], [0xED#8, 0x00#8], [0xED#8, 0x4C#8], [0xED#8, 0x4E#8], [0xED#8, 0x55#8],
      [0xED#8, 0x71#8], [0xED#8, 0xA4#8], [0xED#8, 0xFF#8]] : List (List Byte)).all unread = true := by decide

/-- The opcode table's numbering: the first byte is the least significant (log 25). -/
theorem test_table_word_first_byte_is_low : decodeTableWord 24 0x1946DD = some (.ldRegMemIx .b 0x19#8) := by decide

/-- The words above nbits are zero. -/
theorem test_table_word_operands_are_zero : decodeTableWord 8 0xC3 = some (.jp 0x0000#16) := by decide

/-! ### Single steps -/

/-- The start state of the vectors: zeros, PC = 1000H. -/
def s0 : State := { State.reset with pc := 0x1000#16 }

/-- The start registers. -/
def r0 : Bank := Bank.zero

/-- F from its byte (10_state.md R24): S Z - H - P/V N C. -/
def fl (v : Byte) : Flags := flagsOfByte v

/-- The bytes are at PC and the step completes in a state where the check holds. -/
def after (s : State) (bs : List Byte) (check : State → Bool) : Bool :=
  match step (s.placeBytes s.pc bs) with
  | .next t => check t
  | .fault _ | .refused _ => false

/-- The I/O cycles on the bus, the newest first. -/
def ioCycles (t : State) : List BusEvent :=
  t.busLog.filter fun e => match e with
    | .ioRead _ _ | .ioWrite _ _ => true
    | _ => false

/-! 8-bit loads (spec/95_test_vectors.md, section 40) -/

/-- LD A,B -/
theorem test_v40_1 : after { s0 with regs := { r0 with a := 0x11#8, b := 0x5A#8 } } [0x78#8] (fun t =>
      t.pc == 0x1001#16 && t.regs.a == 0x5A#8) = true := by decide

/-- LD B,(IX+19H) -/
theorem test_v40_5 : after { s0 with ix := 0x25AF#16, mem := [(0x25C8, 0x39#8)] } [0xDD#8, 0x46#8, 0x19#8] (fun t =>
      t.pc == 0x1003#16 && t.regs.b == 0x39#8 && t.regs.c == 0x00#8) = true := by decide

/-- LD A,(IY-5): d = FBH is -5 and the address wraps to FFFEH -/
theorem test_v40_6 : after { s0 with iy := 0x0003#16, mem := [(0xFFFE, 0x77#8)] } [0xFD#8, 0x7E#8, 0xFB#8] (fun t =>
      t.pc == 0x1003#16 && t.regs.a == 0x77#8) = true := by decide

/-- LD (IX-128),C: d = 80H is -128 -/
theorem test_v40_8 :
    after { s0 with regs := { r0 with c := 0x1C#8 }, ix := 0x3100#16 } [0xDD#8, 0x71#8, 0x80#8] (fun t =>
      t.pc == 0x1003#16 && t.read8 0x3080#16 == 0x1C#8) = true := by decide

/-- LD (IY+10H),97H: d comes before n -/
theorem test_v40_10 : after { s0 with iy := 0xA940#16 } [0xFD#8, 0x36#8, 0x10#8, 0x97#8] (fun t =>
      t.pc == 0x1004#16 && t.read8 0xA950#16 == 0x97#8) = true := by decide

/-- LD (DE),A -/
theorem test_v40_12 : after { s0 with regs := { r0 with d := 0x11#8, e := 0x28#8, a := 0xA0#8 } } [0x12#8] (fun t =>
      t.pc == 0x1001#16 && t.read8 0x1128#16 == 0xA0#8) = true := by decide

/-- LD A,(8832H): low byte of nn first -/
theorem test_v40_13 : after { s0 with mem := [(0x8832, 0x04#8)] } [0x3A#8, 0x32#8, 0x88#8] (fun t =>
      t.pc == 0x1003#16 && t.regs.a == 0x04#8) = true := by decide

/-- LD (FFFFH),A -/
theorem test_v40_14 : after { s0 with regs := { r0 with a := 0xD7#8 } } [0x32#8, 0xFF#8, 0xFF#8] (fun t =>
      t.pc == 0x1003#16 && t.read8 0xFFFF#16 == 0xD7#8) = true := by decide

/-- LD A,I: P/V = IFF2, C kept -/
theorem test_v40_15 :
    after { s0 with regs := { r0 with f := fl 0x13#8 }, i := 0x80#8, iff2 := true } [0xED#8, 0x57#8] (fun t =>
      t.pc == 0x1002#16 && t.regs.a == 0x80#8 && t.regs.f == fl 0x85#8) = true := by decide

/-- LD A,R, R_MODEL = exact: two fetches counted first, 7EH+2 wraps in 7 bits to 00H -/
theorem test_v40_17 :
    after { s0 with regs := { r0 with a := 0x55#8 }, r := 0x7E#8, iff2 := true } [0xED#8, 0x5F#8] (fun t =>
      t.pc == 0x1002#16 && t.regs.a == 0x00#8 && t.r == 0x00#8 && t.regs.f == fl 0x44#8) = true := by decide

/-- LD A,R: bit 7 of R kept, low 7 bits 7FH+2 = 01H -/
theorem test_v40_18 : after { s0 with r := 0xFF#8, iff2 := false } [0xED#8, 0x5F#8] (fun t =>
      t.pc == 0x1002#16 && t.regs.a == 0x81#8 && t.r == 0x81#8 && t.regs.f == fl 0x80#8) = true := by decide

/-- LD I,A: no flags -/
theorem test_v40_19 : after { s0 with regs := { r0 with a := 0x40#8 } } [0xED#8, 0x47#8] (fun t =>
      t.pc == 0x1002#16 && t.i == 0x40#8) = true := by decide

/-- LD R,A: R is written after the increments -/
theorem test_v40_20 : after { s0 with regs := { r0 with a := 0x85#8 } } [0xED#8, 0x4F#8] (fun t =>
      t.pc == 0x1002#16 && t.r == 0x85#8) = true := by decide

/-! 16-bit loads (spec/95_test_vectors.md, section 41) -/

/-- LD HL,5000H -/
theorem test_v41_1 : after s0 [0x21#8, 0x00#8, 0x50#8] (fun t =>
      t.pc == 0x1003#16 && t.regs.h == 0x50#8 && t.regs.l == 0x00#8) = true := by decide

/-- LD BC,(2130H) -/
theorem test_v41_5 :
    after { s0 with mem := [(0x2130, 0x65#8), (0x2131, 0x78#8)] } [0xED#8, 0x4B#8, 0x30#8, 0x21#8] (fun t =>
      t.pc == 0x1004#16 && t.regs.b == 0x78#8 && t.regs.c == 0x65#8) = true := by decide

/-- LD SP,(FFFFH): second byte read at 0000H -/
theorem test_v41_6 :
    after { s0 with mem := [(0x0000, 0x12#8), (0xFFFF, 0x34#8)] } [0xED#8, 0x7B#8, 0xFF#8, 0xFF#8] (fun t =>
      t.pc == 0x1004#16 && t.sp == 0x1234#16) = true := by decide

/-- LD (B229H),HL -/
theorem test_v41_8 : after { s0 with regs := { r0 with h := 0x48#8, l := 0x3A#8 } } [0x22#8, 0x29#8, 0xB2#8] (fun t =>
      t.pc == 0x1003#16 && t.read8 0xB229#16 == 0x3A#8 && t.read8 0xB22A#16 == 0x48#8) = true := by decide

/-- LD (1000H),DE -/
theorem test_v41_9 :
    after { s0 with regs := { r0 with d := 0x46#8, e := 0x44#8 }, pc := 0x2000#16 }
      [0xED#8, 0x53#8, 0x00#8, 0x10#8] (fun t =>
      t.pc == 0x2004#16 && t.read8 0x1000#16 == 0x44#8 && t.read8 0x1001#16 == 0x46#8) = true := by decide

/-- LD (4392H),IX -/
theorem test_v41_10 : after { s0 with ix := 0x5A30#16 } [0xDD#8, 0x22#8, 0x92#8, 0x43#8] (fun t =>
      t.pc == 0x1004#16 && t.read8 0x4392#16 == 0x30#8 && t.read8 0x4393#16 == 0x5A#8) = true := by decide

/-- LD SP,HL -/
theorem test_v41_11 : after { s0 with regs := { r0 with h := 0x44#8, l := 0x2E#8 } } [0xF9#8] (fun t =>
      t.pc == 0x1001#16 && t.sp == 0x442E#16) = true := by decide

/-- PUSH BC -/
theorem test_v41_13 :
    after { s0 with regs := { r0 with b := 0x22#8, c := 0x33#8 }, sp := 0x1007#16 } [0xC5#8] (fun t =>
      t.pc == 0x1001#16 && t.sp == 0x1005#16 && t.read8 0x1005#16 == 0x33#8 &&
      t.read8 0x1006#16 == 0x22#8) = true := by decide

/-- PUSH HL with SP = 0001H: writes 0000H then FFFFH -/
theorem test_v41_14 :
    after { s0 with regs := { r0 with h := 0xAB#8, l := 0xCD#8 }, sp := 0x0001#16 } [0xE5#8] (fun t =>
      t.pc == 0x1001#16 && t.sp == 0xFFFF#16 && t.read8 0x0000#16 == 0xAB#8 &&
      t.read8 0xFFFF#16 == 0xCD#8) = true := by decide

/-- POP HL; the opcode itself sits at 1000H and is read as data too: HL = 33E1H -/
theorem test_v41_16 :
    after { s0 with sp := 0x1000#16, mem := [(0x1000, 0xE1#8), (0x1001, 0x33#8), (0x1002, 0x55#8)] }
      [0xE1#8] (fun t =>
      t.pc == 0x1001#16 && t.regs.h == 0x33#8 && t.regs.l == 0xE1#8 && t.sp == 0x1002#16) = true := by decide

/-- POP AF from FFH: all six flags 1, bits 5 and 3 discarded -/
theorem test_v41_17 :
    after { s0 with sp := 0x2000#16, mem := [(0x2000, 0xFF#8), (0x2001, 0x12#8)] } [0xF1#8] (fun t =>
      t.pc == 0x1001#16 && t.regs.a == 0x12#8 && t.sp == 0x2002#16 && t.regs.f == fl 0xD7#8) = true := by decide

/-- POP AF from 28H (only bits 5 and 3 set): all six flags 0 -/
theorem test_v41_18 :
    after { s0 with regs := { r0 with f := fl 0x81#8 }, sp := 0x2000#16,
                    mem := [(0x2000, 0x28#8), (0x2001, 0x9A#8)] } [0xF1#8] (fun t =>
      t.pc == 0x1001#16 && t.regs.a == 0x9A#8 && t.sp == 0x2002#16 && t.regs.f == fl 0x00#8) = true := by decide

/-- POP IY across the end of memory -/
theorem test_v41_19 :
    after { s0 with sp := 0xFFFF#16, mem := [(0x0000, 0x33#8), (0xFFFF, 0x55#8)] } [0xFD#8, 0xE1#8] (fun t =>
      t.pc == 0x1002#16 && t.iy == 0x3355#16 && t.sp == 0x0001#16) = true := by decide

/-! exchange and block (spec/95_test_vectors.md, section 42) -/

/-- EX DE,HL -/
theorem test_v42_1 :
    after { s0 with regs := { r0 with d := 0x28#8, e := 0x22#8, h := 0x49#8, l := 0x9A#8 } } [0xEB#8] (fun t =>
      t.pc == 0x1001#16 && t.regs.d == 0x49#8 && t.regs.e == 0x9A#8 && t.regs.h == 0x28#8 &&
      t.regs.l == 0x22#8) = true := by decide

/-- EX AF,AF' -/
theorem test_v42_2 :
    after { s0 with regs := { r0 with a := 0x99#8, f := fl 0x41#8 },
                    alt := { r0 with a := 0x59#8, f := fl 0x80#8 } } [0x08#8] (fun t =>
      t.pc == 0x1001#16 && t.regs.a == 0x59#8 && t.alt.a == 0x99#8 && t.regs.f == fl 0x80#8) = true := by decide

/-- EXX -/
theorem test_v42_3 :
    after { s0 with regs := { r0 with b := 0x44#8, c := 0x5A#8, d := 0x3D#8, e := 0xA2#8, h := 0x88#8, l := 0x59#8 },
                    alt := { r0 with b := 0x09#8, c := 0x88#8, d := 0x93#8, e := 0x00#8, h := 0x00#8, l := 0xE7#8 } }
      [0xD9#8] (fun t =>
      t.pc == 0x1001#16 && t.regs.b == 0x09#8 && t.regs.c == 0x88#8 && t.regs.d == 0x93#8 && t.regs.e == 0x00#8 &&
      t.regs.h == 0x00#8 && t.regs.l == 0xE7#8 && t.alt.b == 0x44#8 && t.alt.c == 0x5A#8 && t.alt.d == 0x3D#8 &&
      t.alt.e == 0xA2#8 && t.alt.h == 0x88#8 && t.alt.l == 0x59#8) = true := by decide

/-- EX (SP),HL: SP unchanged -/
theorem test_v42_4 :
    after { s0 with regs := { r0 with h := 0x70#8, l := 0x12#8 }, sp := 0x8856#16,
                    mem := [(0x8856, 0x11#8), (0x8857, 0x22#8)] } [0xE3#8] (fun t =>
      t.pc == 0x1001#16 && t.regs.h == 0x22#8 && t.regs.l == 0x11#8 && t.read8 0x8856#16 == 0x12#8 &&
      t.read8 0x8857#16 == 0x70#8) = true := by decide

/-- EX (SP),IX -/
theorem test_v42_5 :
    after { s0 with ix := 0x3988#16, sp := 0x0100#16, mem := [(0x0100, 0x90#8), (0x0101, 0x48#8)] }
      [0xDD#8, 0xE3#8] (fun t =>
      t.pc == 0x1002#16 && t.ix == 0x4890#16 && t.read8 0x0100#16 == 0x88#8 &&
      t.read8 0x0101#16 == 0x39#8) = true := by decide

/-- LDI: S, Z, C kept (90_conflicts.md C1) -/
theorem test_v42_6 :
    after { s0 with regs := { r0 with b := 0x00#8, c := 0x07#8, d := 0x22#8, e := 0x22#8, h := 0x11#8, l := 0x11#8, f := fl 0xD3#8 },
                    mem := [(0x1111, 0x88#8)] } [0xED#8, 0xA0#8] (fun t =>
      t.pc == 0x1002#16 && t.regs.b == 0x00#8 && t.regs.c == 0x06#8 && t.regs.d == 0x22#8 && t.regs.e == 0x23#8 &&
      t.regs.h == 0x11#8 && t.regs.l == 0x12#8 && t.regs.f == fl 0xC5#8 &&
      t.read8 0x2222#16 == 0x88#8) = true := by decide

/-- LDD from 0000H to 0000H: pointers and BC wrap to FFFFH, P/V = 1 -/
theorem test_v42_8 :
    after { s0 with regs := { r0 with b := 0x00#8, c := 0x00#8, d := 0x00#8, e := 0x00#8, h := 0x00#8, l := 0x00#8 },
                    mem := [(0x0000, 0x3C#8)] } [0xED#8, 0xA8#8] (fun t =>
      t.pc == 0x1002#16 && t.regs.b == 0xFF#8 && t.regs.c == 0xFF#8 && t.regs.d == 0xFF#8 && t.regs.e == 0xFF#8 &&
      t.regs.h == 0xFF#8 && t.regs.l == 0xFF#8 && t.regs.f == fl 0x04#8 &&
      t.read8 0x0000#16 == 0x3C#8) = true := by decide

/-- LDIR, first pass: PC stays at 1000H -/
theorem test_v42_9 :
    after { s0 with regs := { r0 with b := 0x00#8, c := 0x03#8, d := 0x30#8, e := 0x00#8, h := 0x20#8, l := 0x00#8 },
                    mem := [(0x2000, 0x01#8), (0x2001, 0x02#8), (0x2002, 0x03#8)] } [0xED#8, 0xB0#8] (fun t =>
      t.pc == 0x1000#16 && t.regs.b == 0x00#8 && t.regs.c == 0x02#8 && t.regs.d == 0x30#8 && t.regs.e == 0x01#8 &&
      t.regs.h == 0x20#8 && t.regs.l == 0x01#8 && t.regs.f == fl 0x04#8 &&
      t.read8 0x3000#16 == 0x01#8) = true := by decide

/-- CPI, match, BC becomes 0: Z = 1, P/V = 0, C kept -/
theorem test_v42_13 :
    after { s0 with regs := { r0 with b := 0x00#8, c := 0x01#8, h := 0x11#8, l := 0x11#8, a := 0x3B#8, f := fl 0x01#8 },
                    mem := [(0x1111, 0x3B#8)] } [0xED#8, 0xA1#8] (fun t =>
      t.pc == 0x1002#16 && t.regs.b == 0x00#8 && t.regs.c == 0x00#8 && t.regs.h == 0x11#8 && t.regs.l == 0x12#8 &&
      t.regs.f == fl 0x43#8) = true := by decide

/-- CPI: 10H-01H = 0FH, half borrow -/
theorem test_v42_14 :
    after { s0 with regs := { r0 with b := 0x00#8, c := 0x05#8, h := 0x11#8, l := 0x11#8, a := 0x10#8 },
                    mem := [(0x1111, 0x01#8)] } [0xED#8, 0xA1#8] (fun t =>
      t.pc == 0x1002#16 && t.regs.b == 0x00#8 && t.regs.c == 0x04#8 && t.regs.h == 0x11#8 && t.regs.l == 0x12#8 &&
      t.regs.f == fl 0x16#8) = true := by decide

/-- CPD: 00H-80H = 80H, S = 1; HL and BC wrap -/
theorem test_v42_17 :
    after { s0 with regs := { r0 with b := 0x00#8, c := 0x00#8, h := 0x00#8, l := 0x00#8, a := 0x00#8 },
                    mem := [(0x0000, 0x80#8)] } [0xED#8, 0xA9#8] (fun t =>
      t.pc == 0x1002#16 && t.regs.b == 0xFF#8 && t.regs.c == 0xFF#8 && t.regs.h == 0xFF#8 && t.regs.l == 0xFF#8 &&
      t.regs.f == fl 0x86#8) = true := by decide

/-! 8-bit arithmetic (spec/95_test_vectors.md, section 43) -/

/-- ADD: 7FH+01H = 80H, overflow and half carry -/
theorem test_v43_2 : after { s0 with regs := { r0 with a := 0x7F#8, b := 0x01#8 } } [0x80#8] (fun t =>
      t.pc == 0x1001#16 && t.regs.a == 0x80#8 && t.regs.f == fl 0x94#8) = true := by decide

/-- ADD: 80H+80H = 00H, carry, overflow, zero -/
theorem test_v43_3 : after { s0 with regs := { r0 with a := 0x80#8, b := 0x80#8 } } [0x80#8] (fun t =>
      t.pc == 0x1001#16 && t.regs.a == 0x00#8 && t.regs.f == fl 0x45#8) = true := by decide

/-- ADC: FFH+00H+1 = 00H: carry-in takes part in H and C -/
theorem test_v43_9 : after { s0 with regs := { r0 with a := 0xFF#8, b := 0x00#8, f := fl 0x01#8 } } [0x88#8] (fun t =>
      t.pc == 0x1001#16 && t.regs.a == 0x00#8 && t.regs.f == fl 0x51#8) = true := by decide

/-- SUB: 00H-01H = FFH, borrow and half borrow -/
theorem test_v43_12 : after { s0 with regs := { r0 with a := 0x00#8, b := 0x01#8 } } [0x90#8] (fun t =>
      t.pc == 0x1001#16 && t.regs.a == 0xFF#8 && t.regs.f == fl 0x93#8) = true := by decide

/-- SUB: 80H-01H = 7FH, overflow -/
theorem test_v43_13 : after { s0 with regs := { r0 with a := 0x80#8, b := 0x01#8 } } [0x90#8] (fun t =>
      t.pc == 0x1001#16 && t.regs.a == 0x7F#8 && t.regs.f == fl 0x16#8) = true := by decide

/-- SBC: 00H-FFH-1 = 00H with borrow -/
theorem test_v43_16 :
    after { s0 with regs := { r0 with a := 0x00#8, b := 0xFF#8, f := fl 0x01#8 } } [0x98#8] (fun t =>
      t.pc == 0x1001#16 && t.regs.f == fl 0x53#8) = true := by decide

/-- AND B: H = 1, even parity -/
theorem test_v43_17 : after { s0 with regs := { r0 with a := 0xC3#8, b := 0x7B#8 } } [0xA0#8] (fun t =>
      t.pc == 0x1001#16 && t.regs.a == 0x43#8 && t.regs.f == fl 0x10#8) = true := by decide

/-- AND 00H: Z = 1, P/V = 1 (parity of 00H is even), C cleared -/
theorem test_v43_18 : after { s0 with regs := { r0 with a := 0xFF#8, f := fl 0x01#8 } } [0xE6#8, 0x00#8] (fun t =>
      t.pc == 0x1002#16 && t.regs.a == 0x00#8 && t.regs.f == fl 0x54#8) = true := by decide

/-- XOR 5DH: CBH, odd parity -/
theorem test_v43_21 : after { s0 with regs := { r0 with a := 0x96#8 } } [0xEE#8, 0x5D#8] (fun t =>
      t.pc == 0x1002#16 && t.regs.a == 0xCB#8 && t.regs.f == fl 0x80#8) = true := by decide

/-- CP 80H: 7FH-80H = FFH, overflow, borrow -/
theorem test_v43_24 : after { s0 with regs := { r0 with a := 0x7F#8 } } [0xFE#8, 0x80#8] (fun t =>
      t.pc == 0x1002#16 && t.regs.f == fl 0x87#8) = true := by decide

/-- INC A: 7FH to 80H, P/V = 1, C kept -/
theorem test_v43_26 : after { s0 with regs := { r0 with a := 0x7F#8, f := fl 0x01#8 } } [0x3C#8] (fun t =>
      t.pc == 0x1001#16 && t.regs.a == 0x80#8 && t.regs.f == fl 0x95#8) = true := by decide

/-- INC B: FFH to 00H, Z = 1, H = 1, C not set -/
theorem test_v43_27 : after { s0 with regs := { r0 with b := 0xFF#8 } } [0x04#8] (fun t =>
      t.pc == 0x1001#16 && t.regs.b == 0x00#8 && t.regs.c == 0x00#8 && t.regs.f == fl 0x50#8) = true := by decide

/-- INC (HL) -/
theorem test_v43_28 :
    after { s0 with regs := { r0 with h := 0x34#8, l := 0x34#8 }, mem := [(0x3434, 0x82#8)] } [0x34#8] (fun t =>
      t.pc == 0x1001#16 && t.regs.f == fl 0x80#8 && t.read8 0x3434#16 == 0x83#8) = true := by decide

/-- INC (IY-1) -/
theorem test_v43_29 : after { s0 with iy := 0x2020#16, mem := [(0x201F, 0x0F#8)] } [0xFD#8, 0x34#8, 0xFF#8] (fun t =>
      t.pc == 0x1003#16 && t.regs.f == fl 0x10#8 && t.read8 0x201F#16 == 0x10#8) = true := by decide

/-- DEC D: 80H to 7FH, P/V = 1 -/
theorem test_v43_30 : after { s0 with regs := { r0 with d := 0x80#8 } } [0x15#8] (fun t =>
      t.pc == 0x1001#16 && t.regs.d == 0x7F#8 && t.regs.e == 0x00#8 && t.regs.f == fl 0x16#8) = true := by decide

/-- DEC C: 00H to FFH, C kept -/
theorem test_v43_31 : after { s0 with regs := { r0 with c := 0x00#8, f := fl 0x01#8 } } [0x0D#8] (fun t =>
      t.pc == 0x1001#16 && t.regs.b == 0x00#8 && t.regs.c == 0xFF#8 && t.regs.f == fl 0x93#8) = true := by decide

/-- DEC (IX+10H): half borrow -/
theorem test_v43_33 : after { s0 with ix := 0x2000#16, mem := [(0x2010, 0x10#8)] } [0xDD#8, 0x35#8, 0x10#8] (fun t =>
      t.pc == 0x1003#16 && t.regs.f == fl 0x12#8 && t.read8 0x2010#16 == 0x0F#8) = true := by decide

/-! CPU control (spec/95_test_vectors.md, section 44) -/

/-- DAA after 15H+27H = 3CH: 42H -/
theorem test_v44_1 : after { s0 with regs := { r0 with a := 0x3C#8 } } [0x27#8] (fun t =>
      t.pc == 0x1001#16 && t.regs.a == 0x42#8 && t.regs.f == fl 0x14#8) = true := by decide

/-- DAA: 9AH to 00H with carry (99+1) -/
theorem test_v44_2 : after { s0 with regs := { r0 with a := 0x9A#8 } } [0x27#8] (fun t =>
      t.pc == 0x1001#16 && t.regs.a == 0x00#8 && t.regs.f == fl 0x55#8) = true := by decide

/-- DAA after 00H-06H = FAH (C = 1, H = 1, N = 1): 94H -/
theorem test_v44_5 : after { s0 with regs := { r0 with a := 0xFA#8, f := fl 0x13#8 } } [0x27#8] (fun t =>
      t.pc == 0x1001#16 && t.regs.a == 0x94#8 && t.regs.f == fl 0x83#8) = true := by decide

/-- CPL: H = 1, N = 1, others kept -/
theorem test_v44_6 : after { s0 with regs := { r0 with a := 0xB4#8, f := fl 0x41#8 } } [0x2F#8] (fun t =>
      t.pc == 0x1001#16 && t.regs.a == 0x4B#8 && t.regs.f == fl 0x53#8) = true := by decide

/-- NEG 80H: stays 80H, P/V = 1, C = 1 -/
theorem test_v44_8 : after { s0 with regs := { r0 with a := 0x80#8 } } [0xED#8, 0x44#8] (fun t =>
      t.pc == 0x1002#16 && t.regs.f == fl 0x87#8) = true := by decide

/-- CCF: C toggled, H indeterminate, N = 0 -/
theorem test_v44_10 : after { s0 with regs := { r0 with f := fl 0x83#8 } } [0x3F#8] (fun t =>
      t.pc == 0x1001#16 && t.regs.f.s == true && t.regs.f.z == false && t.regs.f.pv == false &&
      t.regs.f.n == false && t.regs.f.c == false) = true := by decide

/-- SCF -/
theorem test_v44_11 : after { s0 with regs := { r0 with f := fl 0x52#8 } } [0x37#8] (fun t =>
      t.pc == 0x1001#16 && t.regs.f == fl 0x41#8) = true := by decide

/-- HALT: PC after the opcode, halted = 1 -/
theorem test_v44_13 : after s0 [0x76#8] (fun t =>
      t.pc == 0x1001#16 && t.halted == true) = true := by decide

/-- DI (no_sample = 1 at this boundary) -/
theorem test_v44_14 : after { s0 with iff1 := true, iff2 := true } [0xF3#8] (fun t =>
      t.pc == 0x1001#16 && t.iff1 == false && t.iff2 == false) = true := by decide

/-- EI (no_sample = 1 at this boundary) -/
theorem test_v44_15 : after s0 [0xFB#8] (fun t =>
      t.pc == 0x1001#16 && t.iff1 == true && t.iff2 == true) = true := by decide

/-- IM 2 -/
theorem test_v44_16 : after s0 [0xED#8, 0x5E#8] (fun t =>
      t.pc == 0x1002#16 && t.im == .mode2) = true := by decide

/-! 16-bit arithmetic (spec/95_test_vectors.md, section 45) -/

/-- ADD HL,DE: S, Z, P/V kept, H indeterminate -/
theorem test_v45_1 :
    after { s0 with regs := { r0 with d := 0x11#8, e := 0x11#8, h := 0x42#8, l := 0x42#8, f := fl 0xC6#8 } }
      [0x19#8] (fun t =>
      t.pc == 0x1001#16 && t.regs.h == 0x53#8 && t.regs.l == 0x53#8 && t.regs.f.s == true && t.regs.f.z == true &&
      t.regs.f.pv == true && t.regs.f.n == false && t.regs.f.c == false) = true := by decide

/-- ADC HL,DE: 7FFFH+0+1 = 8000H, overflow -/
theorem test_v45_5 :
    after { s0 with regs := { r0 with d := 0x00#8, e := 0x00#8, h := 0x7F#8, l := 0xFF#8, f := fl 0x01#8 } }
      [0xED#8, 0x5A#8] (fun t =>
      t.pc == 0x1002#16 && t.regs.h == 0x80#8 && t.regs.l == 0x00#8 && t.regs.f.s == true && t.regs.f.z == false &&
      t.regs.f.pv == true && t.regs.f.n == false && t.regs.f.c == false) = true := by decide

/-- SBC HL,SP: borrow -/
theorem test_v45_9 :
    after { s0 with regs := { r0 with h := 0x00#8, l := 0x00#8 }, sp := 0x0001#16 } [0xED#8, 0x72#8] (fun t =>
      t.pc == 0x1002#16 && t.regs.h == 0xFF#8 && t.regs.l == 0xFF#8 && t.regs.f.s == true && t.regs.f.z == false &&
      t.regs.f.pv == false && t.regs.f.n == true && t.regs.f.c == true) = true := by decide

/-- SBC HL,HL with C = 1: FFFFH -/
theorem test_v45_10 :
    after { s0 with regs := { r0 with h := 0x40#8, l := 0x00#8, f := fl 0x01#8 } } [0xED#8, 0x62#8] (fun t =>
      t.pc == 0x1002#16 && t.regs.h == 0xFF#8 && t.regs.l == 0xFF#8 && t.regs.f.s == true && t.regs.f.z == false &&
      t.regs.f.pv == false && t.regs.f.n == true && t.regs.f.c == true) = true := by decide

/-- ADD IX,IX (pp = 10) -/
theorem test_v45_12 : after { s0 with ix := 0xC000#16 } [0xDD#8, 0x29#8] (fun t =>
      t.pc == 0x1002#16 && t.ix == 0x8000#16 && t.regs.f.s == false && t.regs.f.z == false &&
      t.regs.f.pv == false && t.regs.f.n == false && t.regs.f.c == true) = true := by decide

/-- ADD IY,IY (rr = 10): HL is not used -/
theorem test_v45_13 :
    after { s0 with regs := { r0 with h := 0x77#8, l := 0x77#8 }, iy := 0x0101#16 } [0xFD#8, 0x29#8] (fun t =>
      t.pc == 0x1002#16 && t.iy == 0x0202#16 && t.regs.f.s == false && t.regs.f.z == false &&
      t.regs.f.pv == false && t.regs.f.n == false && t.regs.f.c == false) = true := by decide

/-- INC HL wraps; no flag changes -/
theorem test_v45_14 : after { s0 with regs := { r0 with h := 0xFF#8, l := 0xFF#8 } } [0x23#8] (fun t =>
      t.pc == 0x1001#16 && t.regs.h == 0x00#8 && t.regs.l == 0x00#8 && t.regs.f == fl 0x00#8) = true := by decide

/-- DEC BC wraps -/
theorem test_v45_15 : after { s0 with regs := { r0 with b := 0x00#8, c := 0x00#8 } } [0x0B#8] (fun t =>
      t.pc == 0x1001#16 && t.regs.b == 0xFF#8 && t.regs.c == 0xFF#8) = true := by decide

/-- INC IX -/
theorem test_v45_17 : after { s0 with ix := 0x3300#16 } [0xDD#8, 0x23#8] (fun t =>
      t.pc == 0x1002#16 && t.ix == 0x3301#16) = true := by decide

/-- DEC IY -/
theorem test_v45_18 : after { s0 with iy := 0x7649#16 } [0xFD#8, 0x2B#8] (fun t =>
      t.pc == 0x1002#16 && t.iy == 0x7648#16) = true := by decide

/-! rotates and shifts (spec/95_test_vectors.md, section 46) -/

/-- RLCA: S, Z, P/V kept -/
theorem test_v46_1 : after { s0 with regs := { r0 with a := 0x88#8, f := fl 0xD6#8 } } [0x07#8] (fun t =>
      t.pc == 0x1001#16 && t.regs.a == 0x11#8 && t.regs.f == fl 0xC5#8) = true := by decide

/-- RLA -/
theorem test_v46_2 : after { s0 with regs := { r0 with a := 0x76#8, f := fl 0x01#8 } } [0x17#8] (fun t =>
      t.pc == 0x1001#16 && t.regs.a == 0xED#8 && t.regs.f == fl 0x00#8) = true := by decide

/-- RRCA -/
theorem test_v46_3 : after { s0 with regs := { r0 with a := 0x11#8 } } [0x0F#8] (fun t =>
      t.pc == 0x1001#16 && t.regs.a == 0x88#8 && t.regs.f == fl 0x01#8) = true := by decide

/-- RRA -/
theorem test_v46_4 : after { s0 with regs := { r0 with a := 0xE1#8 } } [0x1F#8] (fun t =>
      t.pc == 0x1001#16 && t.regs.a == 0x70#8 && t.regs.f == fl 0x01#8) = true := by decide

/-- RLC B: full flags, unlike RLCA -/
theorem test_v46_5 : after { s0 with regs := { r0 with b := 0x88#8 } } [0xCB#8, 0x00#8] (fun t =>
      t.pc == 0x1002#16 && t.regs.b == 0x11#8 && t.regs.c == 0x00#8 && t.regs.f == fl 0x05#8) = true := by decide

/-- RL (HL) -/
theorem test_v46_7 :
    after { s0 with regs := { r0 with h := 0x28#8, l := 0x28#8 }, mem := [(0x2828, 0x8F#8)] }
      [0xCB#8, 0x16#8] (fun t =>
      t.pc == 0x1002#16 && t.regs.f == fl 0x05#8 && t.read8 0x2828#16 == 0x1E#8) = true := by decide

/-- RRC (IX+2): d is the third byte -/
theorem test_v46_8 :
    after { s0 with ix := 0x1000#16, pc := 0x0300#16, mem := [(0x1002, 0x31#8)] }
      [0xDD#8, 0xCB#8, 0x02#8, 0x0E#8] (fun t =>
      t.pc == 0x0304#16 && t.regs.f == fl 0x81#8 && t.read8 0x1002#16 == 0x98#8) = true := by decide

/-- RR C: 01H to 00H, C = 1, Z = 1 -/
theorem test_v46_9 : after { s0 with regs := { r0 with c := 0x01#8 } } [0xCB#8, 0x19#8] (fun t =>
      t.pc == 0x1002#16 && t.regs.b == 0x00#8 && t.regs.c == 0x00#8 && t.regs.f == fl 0x45#8) = true := by decide

/-- SLA L -/
theorem test_v46_10 : after { s0 with regs := { r0 with l := 0xB1#8 } } [0xCB#8, 0x25#8] (fun t =>
      t.pc == 0x1002#16 && t.regs.h == 0x00#8 && t.regs.l == 0x62#8 && t.regs.f == fl 0x01#8) = true := by decide

/-- SRA D: bit 7 kept -/
theorem test_v46_11 : after { s0 with regs := { r0 with d := 0xB8#8 } } [0xCB#8, 0x2A#8] (fun t =>
      t.pc == 0x1002#16 && t.regs.d == 0xDC#8 && t.regs.e == 0x00#8 && t.regs.f == fl 0x80#8) = true := by decide

/-- SRL (IY-2) -/
theorem test_v46_14 :
    after { s0 with iy := 0x4000#16, mem := [(0x3FFE, 0x01#8)] } [0xFD#8, 0xCB#8, 0xFE#8, 0x3E#8] (fun t =>
      t.pc == 0x1004#16 && t.regs.f == fl 0x45#8 && t.read8 0x3FFE#16 == 0x00#8) = true := by decide

/-- RLD: C kept -/
theorem test_v46_16 :
    after { s0 with regs := { r0 with h := 0x50#8, l := 0x00#8, a := 0x7A#8, f := fl 0x01#8 },
                    mem := [(0x5000, 0x31#8)] } [0xED#8, 0x6F#8] (fun t =>
      t.pc == 0x1002#16 && t.regs.a == 0x73#8 && t.read8 0x5000#16 == 0x1A#8) = true := by decide

/-- RRD -/
theorem test_v46_17 :
    after { s0 with regs := { r0 with h := 0x50#8, l := 0x00#8, a := 0x84#8 }, mem := [(0x5000, 0x20#8)] }
      [0xED#8, 0x67#8] (fun t =>
      t.pc == 0x1002#16 && t.regs.a == 0x80#8 && t.regs.f == fl 0x80#8 &&
      t.read8 0x5000#16 == 0x42#8) = true := by decide

/-! bits (spec/95_test_vectors.md, section 47) -/

/-- BIT 2,B: bit is 1 so Z = 0; S and P/V indeterminate; C kept -/
theorem test_v47_1 : after { s0 with regs := { r0 with b := 0x04#8, f := fl 0x01#8 } } [0xCB#8, 0x50#8] (fun t =>
      t.pc == 0x1002#16 && t.regs.f.z == false && t.regs.f.h == true && t.regs.f.n == false &&
      t.regs.f.c == true) = true := by decide

/-- BIT 4,(HL): memory not written -/
theorem test_v47_3 :
    after { s0 with regs := { r0 with h := 0x44#8, l := 0x44#8 }, mem := [(0x4444, 0x10#8)] }
      [0xCB#8, 0x66#8] (fun t =>
      t.pc == 0x1002#16 && t.regs.f.z == false && t.regs.f.h == true && t.regs.f.n == false &&
      t.regs.f.c == false) = true := by decide

/-- BIT 0,(IY-4) -/
theorem test_v47_5 :
    after { s0 with iy := 0x2000#16, mem := [(0x1FFC, 0x01#8)] } [0xFD#8, 0xCB#8, 0xFC#8, 0x46#8] (fun t =>
      t.pc == 0x1004#16 && t.regs.f.z == false && t.regs.f.h == true && t.regs.f.n == false &&
      t.regs.f.c == false) = true := by decide

/-- SET 4,A: no flags -/
theorem test_v47_6 : after { s0 with regs := { r0 with a := 0x00#8, f := fl 0x40#8 } } [0xCB#8, 0xE7#8] (fun t =>
      t.pc == 0x1002#16 && t.regs.a == 0x10#8 && t.regs.f == fl 0x40#8) = true := by decide

/-- SET 0,(IX+3) when already set: the same value is written back -/
theorem test_v47_8 :
    after { s0 with ix := 0x2000#16, mem := [(0x2003, 0xFF#8)] } [0xDD#8, 0xCB#8, 0x03#8, 0xC6#8] (fun t =>
      t.pc == 0x1004#16 && t.read8 0x2003#16 == 0xFF#8) = true := by decide

/-- RES 0,(HL) -/
theorem test_v47_10 :
    after { s0 with regs := { r0 with h := 0x30#8, l := 0x00#8 }, mem := [(0x3000, 0x01#8)] }
      [0xCB#8, 0x86#8] (fun t =>
      t.pc == 0x1002#16 && t.read8 0x3000#16 == 0x00#8) = true := by decide

/-- RES 7,(IY+127): address wraps to 006FH -/
theorem test_v47_11 :
    after { s0 with iy := 0xFFF0#16, mem := [(0x006F, 0x80#8)] } [0xFD#8, 0xCB#8, 0x7F#8, 0xBE#8] (fun t =>
      t.pc == 0x1004#16 && t.read8 0x006F#16 == 0x00#8) = true := by decide

/-! jumps, calls, returns (spec/95_test_vectors.md, section 48) -/

/-- JP 1234H -/
theorem test_v48_1 : after s0 [0xC3#8, 0x34#8, 0x12#8] (fun t =>
      t.pc == 0x1234#16) = true := by decide

/-- JP Z not taken: PC past the three bytes -/
theorem test_v48_3 : after s0 [0xCA#8, 0x00#8, 0x80#8] (fun t =>
      t.pc == 0x1003#16) = true := by decide

/-- JP PO (cc = 100) taken when P/V = 0 -/
theorem test_v48_4 : after s0 [0xE2#8, 0x00#8, 0x80#8] (fun t =>
      t.pc == 0x8000#16) = true := by decide

/-- JR +3: assembler operand e = 5, byte e-2 = 03H, target 0485H -/
theorem test_v48_6 : after { s0 with pc := 0x0480#16 } [0x18#8, 0x03#8] (fun t =>
      t.pc == 0x0485#16) = true := by decide

/-- JR -128 from 0010H: 0012H-128 wraps to FF92H -/
theorem test_v48_8 : after { s0 with pc := 0x0010#16 } [0x18#8, 0x80#8] (fun t =>
      t.pc == 0xFF92#16) = true := by decide

/-- JR NC taken, backwards -/
theorem test_v48_11 : after s0 [0x30#8, 0xFA#8] (fun t =>
      t.pc == 0x0FFC#16) = true := by decide

/-- JR NZ not taken -/
theorem test_v48_13 : after { s0 with regs := { r0 with f := fl 0x40#8 } } [0x20#8, 0xFC#8] (fun t =>
      t.pc == 0x1002#16) = true := by decide

/-- JP (HL): PC = HL, memory at HL not read -/
theorem test_v48_14 :
    after { s0 with regs := { r0 with h := 0x48#8, l := 0x00#8 }, mem := [(0x4800, 0x99#8)] } [0xE9#8] (fun t =>
      t.pc == 0x4800#16) = true := by decide

/-- DJNZ taken -/
theorem test_v48_17 : after { s0 with regs := { r0 with b := 0x03#8 } } [0x10#8, 0xFE#8] (fun t =>
      t.pc == 0x1000#16 && t.regs.b == 0x02#8 && t.regs.c == 0x00#8) = true := by decide

/-- DJNZ falls through when B becomes 0 -/
theorem test_v48_18 : after { s0 with regs := { r0 with b := 0x01#8 } } [0x10#8, 0xFE#8] (fun t =>
      t.pc == 0x1002#16 && t.regs.b == 0x00#8 && t.regs.c == 0x00#8) = true := by decide

/-- CALL 2135H: pushes 1A4AH -/
theorem test_v48_20 : after { s0 with sp := 0x3002#16, pc := 0x1A47#16 } [0xCD#8, 0x35#8, 0x21#8] (fun t =>
      t.pc == 0x2135#16 && t.sp == 0x3000#16 && t.read8 0x3000#16 == 0x4A#8 &&
      t.read8 0x3001#16 == 0x1A#8) = true := by decide

/-- CALL C not taken: nothing pushed -/
theorem test_v48_22 : after { s0 with sp := 0x3002#16, pc := 0x1A47#16 } [0xDC#8, 0x35#8, 0x21#8] (fun t =>
      t.pc == 0x1A4A#16) = true := by decide

/-- CALL with SP = 0000H: stack wraps to FFFFH, FFFEH -/
theorem test_v48_23 : after { s0 with sp := 0x0000#16, pc := 0x0100#16 } [0xCD#8, 0x00#8, 0x40#8] (fun t =>
      t.pc == 0x4000#16 && t.sp == 0xFFFE#16 && t.read8 0xFFFE#16 == 0x03#8 &&
      t.read8 0xFFFF#16 == 0x01#8) = true := by decide

/-- RET -/
theorem test_v48_24 :
    after { s0 with sp := 0x2000#16, pc := 0x3535#16, mem := [(0x2000, 0xB5#8), (0x2001, 0x18#8)] } [0xC9#8] (fun t =>
      t.pc == 0x18B5#16 && t.sp == 0x2002#16) = true := by decide

/-- RET M not taken -/
theorem test_v48_26 :
    after { s0 with sp := 0x2000#16, pc := 0x3535#16, mem := [(0x2000, 0xB5#8), (0x2001, 0x18#8)] } [0xF8#8] (fun t =>
      t.pc == 0x3536#16) = true := by decide

/-- RETI: IFF1 stays 0 (RETI_COPIES_IFF2 = false) -/
theorem test_v48_27 :
    after { s0 with sp := 0x2000#16, iff1 := false, iff2 := true, pc := 0x0070#16,
                    mem := [(0x2000, 0xB5#8), (0x2001, 0x18#8)] } [0xED#8, 0x4D#8] (fun t =>
      t.pc == 0x18B5#16 && t.sp == 0x2002#16) = true := by decide

/-- RETN: IFF1 <- IFF2 -/
theorem test_v48_28 :
    after { s0 with sp := 0x2000#16, iff1 := false, iff2 := true, pc := 0x0070#16,
                    mem := [(0x2000, 0xB5#8), (0x2001, 0x18#8)] } [0xED#8, 0x45#8] (fun t =>
      t.pc == 0x18B5#16 && t.sp == 0x2002#16 && t.iff1 == true) = true := by decide

/-- RST 18H -/
theorem test_v48_30 : after { s0 with sp := 0x3002#16, pc := 0x15B3#16 } [0xDF#8] (fun t =>
      t.pc == 0x0018#16 && t.sp == 0x3000#16 && t.read8 0x3000#16 == 0xB4#8 &&
      t.read8 0x3001#16 == 0x15#8) = true := by decide

/-- RST 38H at FFFFH: return address 0000H pushed at 0000H and FFFFH, overwriting the RST byte itself -/
theorem test_v48_32 : after { s0 with sp := 0x0001#16, pc := 0xFFFF#16 } [0xFF#8] (fun t =>
      t.pc == 0x0038#16 && t.sp == 0xFFFF#16 && t.read8 0x0000#16 == 0x00#8 &&
      t.read8 0xFFFF#16 == 0x00#8) = true := by decide

/-! input and output (spec/95_test_vectors.md, section 49) -/

/-- IN A,(01H): A on A8 to A15; no flags -/
theorem test_v49_1 :
    after { s0 with regs := { r0 with a := 0x23#8 }, ioReplies := [0x7B#8] } [0xDB#8, 0x01#8] (fun t =>
      t.pc == 0x1002#16 && t.regs.a == 0x7B#8 && t.regs.f == fl 0x00#8 &&
      ioCycles t == [.ioRead 0x2301#16 0x7B#8]) = true := by decide

/-- IN D,(C): flags set, H = 0 (90_conflicts.md C4), C kept -/
theorem test_v49_2 :
    after { s0 with regs := { r0 with b := 0x10#8, c := 0x07#8, f := fl 0x01#8 }, ioReplies := [0x7B#8] }
      [0xED#8, 0x50#8] (fun t =>
      t.pc == 0x1002#16 && t.regs.d == 0x7B#8 && t.regs.e == 0x00#8 && t.regs.f == fl 0x05#8 &&
      ioCycles t == [.ioRead 0x1007#16 0x7B#8]) = true := by decide

/-- IN with r = 110: only flags; Z = 1, P/V = 1 -/
theorem test_v49_3 :
    after { s0 with regs := { r0 with b := 0x10#8, c := 0x07#8, h := 0x12#8, l := 0x34#8 }, ioReplies := [0x00#8] }
      [0xED#8, 0x70#8] (fun t =>
      t.pc == 0x1002#16 && t.regs.f == fl 0x44#8 && ioCycles t == [.ioRead 0x1007#16 0x00#8]) = true := by decide

/-- OUT (01H),A -/
theorem test_v49_5 : after { s0 with regs := { r0 with a := 0x23#8 } } [0xD3#8, 0x01#8] (fun t =>
      t.pc == 0x1002#16 && ioCycles t == [.ioWrite 0x2301#16 0x23#8]) = true := by decide

/-- OUT (C),D -/
theorem test_v49_6 :
    after { s0 with regs := { r0 with b := 0x10#8, c := 0x01#8, d := 0x5A#8 } } [0xED#8, 0x51#8] (fun t =>
      t.pc == 0x1002#16 && ioCycles t == [.ioWrite 0x1001#16 0x5A#8]) = true := by decide

/-- INI: port address uses B before the decrement -/
theorem test_v49_7 :
    after { s0 with regs := { r0 with b := 0x10#8, c := 0x07#8, h := 0x10#8, l := 0x00#8 }, pc := 0x0200#16,
                    ioReplies := [0x7B#8] } [0xED#8, 0xA2#8] (fun t =>
      t.pc == 0x0202#16 && t.regs.b == 0x0F#8 && t.regs.c == 0x07#8 && t.regs.h == 0x10#8 && t.regs.l == 0x01#8 &&
      t.regs.f.z == false && t.regs.f.n == true && t.read8 0x1000#16 == 0x7B#8 &&
      ioCycles t == [.ioRead 0x1007#16 0x7B#8]) = true := by decide

/-- IND with B = 0: B = FFH, HL wraps to FFFFH -/
theorem test_v49_9 :
    after { s0 with regs := { r0 with b := 0x00#8, c := 0x07#8, h := 0x00#8, l := 0x00#8 }, pc := 0x0200#16,
                    ioReplies := [0x11#8] } [0xED#8, 0xAA#8] (fun t =>
      t.pc == 0x0202#16 && t.regs.b == 0xFF#8 && t.regs.c == 0x07#8 && t.regs.h == 0xFF#8 && t.regs.l == 0xFF#8 &&
      t.regs.f.z == false && t.regs.f.n == true && t.read8 0x0000#16 == 0x11#8 &&
      ioCycles t == [.ioRead 0x0007#16 0x11#8]) = true := by decide

/-- OUTI: port address uses B after the decrement (BLOCK_OUT_B_PHASE default) -/
theorem test_v49_11 :
    after { s0 with regs := { r0 with b := 0x10#8, c := 0x07#8, h := 0x10#8, l := 0x00#8 }, pc := 0x0200#16,
                    mem := [(0x1000, 0x59#8)] } [0xED#8, 0xA3#8] (fun t =>
      t.pc == 0x0202#16 && t.regs.b == 0x0F#8 && t.regs.c == 0x07#8 && t.regs.h == 0x10#8 && t.regs.l == 0x01#8 &&
      t.regs.f.z == false && t.regs.f.n == true && ioCycles t == [.ioWrite 0x0F07#16 0x59#8]) = true := by decide

/-- OUTD with B = 1: Z = 1, port address 0007H -/
theorem test_v49_12 :
    after { s0 with regs := { r0 with b := 0x01#8, c := 0x07#8, h := 0x10#8, l := 0x00#8 }, pc := 0x0200#16,
                    mem := [(0x1000, 0x59#8)] } [0xED#8, 0xAB#8] (fun t =>
      t.pc == 0x0202#16 && t.regs.b == 0x00#8 && t.regs.c == 0x07#8 && t.regs.h == 0x0F#8 && t.regs.l == 0xFF#8 &&
      t.regs.f.z == true && t.regs.f.n == true && ioCycles t == [.ioWrite 0x0007#16 0x59#8]) = true := by decide

/-! Interrupts at the boundary (spec/95_test_vectors.md, section 60) -/

/-- Nothing from the environment. -/
def q : BoundaryInput := BoundaryInput.quiet

/-- The start state of the interrupt vectors: SP = 8000H, the enables, the mode, and what the next boundary brings. -/
def si (pc : Word) (enabled : Bool) (im : IntMode) (b : BoundaryInput) : State :=
  { s0 with pc := pc, sp := 0x8000#16, iff1 := enabled, iff2 := enabled, im := im, inputs := [b] }

/-- PC, SP, the enables and the two bytes below 8000H. -/
def entered (pc : Word) (iff1 iff2 : Bool) (lo hi : Byte) (t : State) : Bool :=
  t.pc == pc && t.sp == 0x7FFE#16 && t.iff1 == iff1 && t.iff2 == iff2 && !t.halted &&
    t.read8 0x7FFE#16 == lo && t.read8 0x7FFF#16 == hi

/-- NMI: PC pushed is 1234H, IFF2 keeps the old IFF1 -/
theorem test_v60_1 : after (si 0x1233#16 true .mode0 { q with nmiEdge := true }) [0x00#8]
    (entered 0x0066#16 false true 0x34#8 0x12#8) = true := by decide

/-- mode 0, RST 38H -/
theorem test_v60_2 : after (si 0x1233#16 true .mode0 { q with intLine := true, busByte := 0xFF#8 }) [0x00#8]
    (entered 0x0038#16 false false 0x34#8 0x12#8) = true := by decide

/-- mode 0, RST 10H -/
theorem test_v60_3 : after (si 0x1233#16 true .mode0 { q with intLine := true, busByte := 0xD7#8 }) [0x00#8]
    (entered 0x0010#16 false false 0x34#8 0x12#8) = true := by decide

/-- mode 1: the byte is ignored -/
theorem test_v60_4 : after (si 0x1FFF#16 true .mode1 { q with intLine := true, busByte := 0x55#8 }) [0x00#8]
    (entered 0x0038#16 false false 0x00#8 0x20#8) = true := by decide

/-- mode 2: table entry read low byte first -/
theorem test_v60_5 :
    after { si 0x1233#16 true .mode2 { q with intLine := true, busByte := 0x12#8 } with
            i := 0x40#8, mem := [(0x4013, 0x90#8)] } [0x00#8]
    (entered 0x9000#16 false false 0x34#8 0x12#8) = true := by decide

/-- mode 2, odd vector: the second byte is read with a carry into the high byte -/
theorem test_v60_6 :
    after { si 0x1233#16 true .mode2 { q with intLine := true, busByte := 0xFF#8 } with
            i := 0x40#8, mem := [(0x40FF, 0x34#8), (0x4100, 0x12#8)] } [0x00#8]
    (entered 0x1234#16 false false 0x34#8 0x12#8) = true := by decide

/-- masked by IFF1 = 0 -/
theorem test_v60_7 : after (si 0x1233#16 false .mode1 { q with intLine := true }) [0x00#8]
    (fun t => t.pc == 0x1234#16 && t.sp == 0x8000#16 && !t.iff1) = true := by decide

/-- EI: no sampling at its own boundary -/
theorem test_v60_8a : after (si 0x0100#16 false .mode1 { q with intLine := true }) [0xFB#8]
    (fun t => t.pc == 0x0101#16 && t.sp == 0x8000#16 && t.iff1 && t.iff2 && !t.noSample) = true := by decide

/-- DI: no sampling at its boundary, though INT is active and IFF1 was 1 -/
theorem test_v60_9 : after (si 0x0100#16 true .mode1 { q with intLine := true }) [0xF3#8]
    (fun t => t.pc == 0x0101#16 && t.sp == 0x8000#16 && !t.iff1 && !t.iff2) = true := by decide

/-- NMI and INT at one boundary: NMI first -/
theorem test_v60_10a : after (si 0x0100#16 true .mode1 { q with nmiEdge := true, intLine := true }) [0x00#8]
    (entered 0x0066#16 false true 0x01#8 0x01#8) = true := by decide

/-- RETN restores IFF1, and INT is accepted at its boundary -/
theorem test_v60_10b :
    after { si 0x0066#16 false .mode1 { q with intLine := true } with
            iff2 := true, sp := 0x7FFE#16, mem := [(0x7FFE, 0x01#8), (0x7FFF, 0x01#8)] } [0xED#8, 0x45#8]
    (entered 0x0038#16 false false 0x01#8 0x01#8) = true := by decide

/-- the Halt state ends when INT is active: the pushed PC is the byte after the HALT -/
theorem test_v60_11b : after { si 0x0102#16 true .mode1 { q with intLine := true } with halted := true } []
    (entered 0x0038#16 false false 0x02#8 0x01#8) = true := by decide

/-- halted with IFF1 = 0: INT does not end it, R counts one NOP -/
theorem test_v60_12a : after { si 0x0102#16 false .mode1 { q with intLine := true } with halted := true } []
    (fun t => t.pc == 0x0102#16 && t.sp == 0x8000#16 && t.halted && t.r == 0x01#8 && t.tStates == 4) = true := by
  decide

/-- NMI between two passes of LDIR: one byte copied, the pushed PC is the LDIR's -/
theorem test_v60_13 :
    after { si 0x1000#16 false .mode0 { q with nmiEdge := true } with
            regs := { r0 with c := 0x03#8, h := 0x20#8, d := 0x30#8 }, mem := [(0x2000, 0x01#8)] } [0xED#8, 0xB0#8]
    (fun t => entered 0x0066#16 false false 0x00#8 0x10#8 t && t.regs.c == 0x02#8 && t.read8 0x3000#16 == 0x01#8) =
    true := by decide

/-- LD A,I interrupted: P/V holds the IFF2 of execution time -/
theorem test_v60_14 :
    after { si 0x1000#16 true .mode1 { q with intLine := true } with i := 0x12#8 } [0xED#8, 0x57#8]
    (fun t => entered 0x0038#16 false false 0x02#8 0x10#8 t && t.regs.a == 0x12#8 && t.regs.f.pv) = true := by decide

/-- In mode 0 a byte that is no restart is refused (60_exceptions.md R506, MODE0_INSTR). -/
theorem test_mode0_refuses_a_call :
    (match step (si 0x1233#16 true .mode0 { q with intLine := true, busByte := 0xCD#8 }) with
      | .refused r => r == .mode0Instruction 0xCD#8
      | .next _ | .fault _ => false) = true := by decide

/-- Reset from any state (section 70, V70-1); memory stays. -/
theorem test_v70_1 :
    after { si 0x1234#16 true .mode2 { q with reset := true } with
            i := 0x40#8, r := 0x55#8, halted := true, nmiPending := true, mem := [(0x9000, 0x77#8)] } []
    (fun t => t.pc == 0x0000#16 && t.i == 0x00#8 && t.r == 0x00#8 && !t.iff1 && !t.iff2 && t.im == .mode0 &&
      !t.halted && !t.nmiPending && !t.noSample && t.mem == [(0x9000, 0x77#8)]) = true := by decide

/-- A bus grant at the boundary: the other master writes memory, the CPU keeps PC and registers; the next turn hands
the bus back (60_exceptions.md R486). -/
theorem test_bus_grant :
    after (si 0x1233#16 true .mode1 { q with busreq := true, intLine := true, dma := [.memWrite 0x9000#16 0x5A#8] })
      [0x00#8] (fun t => t.busGranted && t.pc == 0x1234#16 && t.sp == 0x8000#16 && t.read8 0x9000#16 == 0x5A#8 &&
        (match step t with | .next u => !u.busGranted && u.pc == 0x1234#16 | .fault _ | .refused _ => false)) =
    true := by decide

/-! Platform devices (spec/95_test_vectors.md, section 61) -/

/-- A channel after a hardware reset, its registers zero. -/
def ch : CtcChannel :=
  { control := 0#8, constantNext := false, timeConstant := 0#8, down := 0#8, prescale := 0, run := .stopped
    zeroCounts := 0, source := none, pending := false, underService := false }

/-- A CTC at ports 10H to 13H. -/
def ctc : Ctc := { base := 0x10#8, resetWired := true, ch0 := ch, ch1 := ch, ch2 := ch, ch3 := ch, vector := 0#8 }

/-- A PIO port in mode 0, its registers zero. -/
def port : PioPort :=
  { mode := .output, next := .command, direction := 0#8, mask := 0#8, andLogic := false, activeHigh := false
    vector := 0#8, enabled := false, enableNext := false, outputReg := 0#8, inputReg := 0#8, ready := false
    lines := 0#8, pending := false, underService := false }

/-- A PIO at ports 20H to 23H. -/
def pio : Pio := { base := 0x20#8, portA := port, portB := port }

/-- the vector word, through OUT (10H),A -/
theorem test_v61_1 :
    (match exec (.outImmA 0x10#8) { s0 with regs := { r0 with a := 0xA8#8 }, devices := [.ctc ctc] } with
      | .next t => t.devices == [.ctc { ctc with vector := 0xA8#8 }]
      | .fault _ | .refused _ => false) = true := by decide

/-- channel 2 supplies ACH -/
theorem test_v61_2 :
    State.ackByte { s0 with devices :=
      [.ctc { ctc with vector := 0xA8#8, ch2 := { ch with control := 0x80#8, pending := true } }] } 0xFF#8 = 0xAC#8 := by
  decide

/-- channels 1 and 3 both request: channel 1 supplies AAH, channel 3 stays pending -/
theorem test_v61_3 :
    (let s : State := { s0 with devices := [.ctc { ctc with
        vector := 0xA8#8, ch1 := { ch with control := 0x80#8, pending := true }
        ch3 := { ch with control := 0x80#8, pending := true } }] };
      s.ackByte 0xFF#8 == 0xAA#8 &&
      (chain (s.afterIntAck 0xFF#8).devices).map (fun x => (x.pending, x.underService)) ==
        [(false, false), (false, true), (false, false), (true, false)]) = true := by decide

/-- 85H, then 00H: the time constant is 256 and the timer runs with prescaler 16 -/
theorem test_v61_4 :
    ((ch.write 0x85#8).write 0x00#8).run = .counting ∧ ((ch.write 0x85#8).write 0x00#8).factor = 16 ∧
      countOf ((ch.write 0x85#8).write 0x00#8).down = 256 := by decide

/-- 03H stops it and clears the interrupt enable -/
theorem test_v61_5 :
    ({ ch with control := 0x85#8, run := .counting }.write 0x03#8).run = .stopped ∧
      ({ ch with control := 0x85#8, run := .counting }.write 0x03#8).interruptEnabled = false := by decide

/-- an awaited time constant takes precedence over the vector word -/
theorem test_v61_6 :
    (Ctc.write 0#2 0xA8#8 { ctc with ch0 := { ch with constantNext := true } }).ch0.timeConstant = 0xA8#8 ∧
      (Ctc.write 0#2 0xA8#8 { ctc with ch0 := { ch with constantNext := true } }).vector = 0#8 := by decide

/-- IN A,(10H) reads the down-counter -/
theorem test_v61_7 :
    after { s0 with devices := [.ctc { ctc with ch0 := { ch with control := 0x40#8, run := .counting, down := 0x37#8 } }] }
      [0xDB#8, 0x10#8] (fun t => t.regs.a == 0x37#8) = true := by decide

/-- a PIO vector word, and the vector supplied -/
theorem test_v61_8 :
    State.ackByte { s0 with devices :=
      [.pio { pio with portA := { port.writeControl false 0x46#8 with enabled := true, pending := true } }] } 0xFF#8 =
      0x46#8 := by decide

/-! What the platform does beside the CPU -/

/-- A memory-mapped device answers a load with its next reply (20_memory.md R60): LD A,(9000H). -/
theorem test_memory_mapped_device :
    after { s0 with memMap := [{ base := 0x9000, size := 0x10, kind := .device }], memReplies := [0x5A#8, 0x77#8] }
      [0x3A#8, 0x00#8, 0x90#8] (fun t => t.regs.a == 0x5A#8 && t.memReplies == [0x77#8] &&
        t.busLog.head? == some (.memRead 0x9000#16 0x5A#8)) = true := by decide

/-- The bus cycles of LD BC,(2130H), the last one first: four fetched, the low byte read before the high one (R66). -/
theorem test_read_order :
    after { s0 with mem := [(0x2130, 0x65#8), (0x2131, 0x78#8)] } [0xED#8, 0x4B#8, 0x30#8, 0x21#8] (fun t =>
      t.busLog == [.memRead 0x2131#16 0x78#8, .memRead 0x2130#16 0x65#8, .memRead 0x1003#16 0x21#8,
        .memRead 0x1002#16 0x30#8, .opFetch 0x1001#16 0x4B#8, .opFetch 0x1000#16 0xED#8]) = true := by decide

/-- Another bus master writes between the two reads of LD HL,(2130H), at the end of the fourth machine cycle (R75,
DMA_GRAIN = machine_cycle): the low byte is the old one, the high byte the new one. -/
theorem test_dma_between_two_cycles :
    after { s0 with mem := [(0x2130, 0x65#8), (0x2131, 0x78#8)]
                    cycleDma := [[], [], [], [.memWrite 0x2130#16 0xFF#8, .memWrite 0x2131#16 0x12#8]] }
      [0x2A#8, 0x30#8, 0x21#8] (fun t => t.regs.l == 0x65#8 && t.regs.h == 0x12#8 && t.cycleDma == []) = true := by
  decide

/-- DMA_GRAIN = instruction: nothing happens inside an instruction. -/
theorem test_dma_not_inside_an_instruction :
    after { s0 with params := { Params.default with dmaGrain := .instruction }, cycleDma := [[.memWrite 0x2130#16 0xFF#8]] }
      [0x3A#8, 0x30#8, 0x21#8] (fun t => t.regs.a == 0x00#8) = true := by decide

/-- RESET in the response to an interrupt (R570): the pushed bytes are there or not, RESET is done. -/
theorem test_reset_in_a_response :
    after (si 0x1233#16 true .mode1 { q with intLine := true, resetsResponse := true }) [0x00#8] (fun t =>
      t.pc == 0x0000#16 && !t.iff1 && t.im == .mode0) = true := by decide

/-- A channel that counts to its zero count at the next clock period or active edge. -/
def atOne (control : Byte) : CtcChannel := { ch with control := control, run := .counting, timeConstant := 1#8, down := 1#8 }

/-- The ZC/TO pulse of channel 0, a timer, is counted by channel 1, a counter wired to it (R561); channel 3 has no such
output. -/
theorem test_zero_count_pulse :
    (let c : Ctc := { ctc with ch0 := { atOne 0x81#8 with prescale := 15 }, ch1 := { atOne 0xC1#8 with source := some 0#2 }
                               ch3 := { atOne 0x01#8 with prescale := 15 }, ch2 := { atOne 0xC1#8 with source := some 3#2 } }
     [c.tick.ch0.zeroCounts, c.tick.ch1.zeroCounts, c.tick.ch2.zeroCounts, c.tick.ch3.zeroCounts] = [1, 1, 0, 1] ∧
       c.tick.ch0.pending = true ∧ c.tick.ch1.pending = true) := by decide

/-- In mode 3 an output line takes no part in the equation (R551): inputs 0 and 1, line 7 an output. -/
theorem test_mode3_ignores_outputs :
    (let p : PioPort := { port with mode := .bitControl, direction := 0x03#8, activeHigh := true, enabled := true }
     (PioPort.testLines false { p with lines := 0x80#8 }).pending = false ∧
       (PioPort.testLines false { p with lines := 0x82#8 }).pending = true ∧
       (PioPort.testLines false { p with andLogic := true, lines := 0x03#8 }).pending = true) := by decide

/-- The mask word that makes the equation true requests at once (R553). -/
theorem test_mode3_mask_word_requests :
    (PioPort.writeControl false 0xFE#8 { port with
      mode := .bitControl, next := .mask, direction := 0xFF#8, mask := 0xFF#8, activeHigh := true, enabled := true
      lines := 0x01#8 }).pending = true := by decide

/-- The PIO's reset leaves the lines, and any values else (R554, 93 U22). -/
theorem test_pio_reset :
    (match Device.event 0 (.pioReset 0) (.pio { pio with portA := { port with lines := 0x5A#8, next := .mask } }) with
      | .pio p => p.base == 0x20#8 && p.portA.lines == 0x5A#8 && p.portA.next == .command
      | .ctc _ => false) = true := by decide

/-- The CPU's RESET reaches a CTC that is wired to it and no other; the chip's own RESET pin reaches it either way
(R573). -/
theorem test_ctc_reset_wiring :
    (let c : Ctc := { ctc with ch1 := atOne 0xC1#8, resetWired := false }
     Device.hardReset (fun _ => 0#8) (.ctc c) = .ctc c ∧
       (match Device.hardReset (fun _ => 0#8) (.ctc { c with resetWired := true }), Device.event 0 (.ctcReset 0) (.ctc c) with
         | .ctc x, .ctc y => x.ch1.run == .stopped && !x.ch1.interruptEnabled && y.ch1.run == .stopped &&
             !y.ch1.interruptEnabled
         | _, _ => false) = true) := by decide

/-! Memory and time -/

/-- Reset memory is canonical, and writing what an unlisted address reads as removes the entry. -/
theorem test_memory_canonical :
    State.reset.mem.wf = true ∧ (Memory.write (Memory.write [] 5 0x12#8) 5 unlistedByte) = [] ∧
      Memory.wf (Memory.write (Memory.write [] 7 0x12#8) 5 0x34#8) = true := by decide

/-- ROM ignores a write (92 D25). -/
theorem test_rom_ignores_writes :
    (State.write8 { s0 with memMap := [{ base := 0x0000, size := 0x2000, kind := .rom }], mem := [(0x0010, 0x55#8)] }
      0x0010#16 0xAA#8).read8 0x0010#16 = 0x55#8 := by decide

/-- T states of the table's timing column: LD A,(IX+d) 19, JR NZ not taken 7, LDIR repeating 21, CALL 17. -/
theorem test_timing :
    instrCost (.ldRegMemIx .a 0#8) s0 = 19 ∧
      instrCost (.jrNz 0#8) { s0 with regs := { r0 with f := fl 0x40#8 } } = 7 ∧
      instrCost .ldir { s0 with regs := { r0 with c := 2#8 } } = 21 ∧ instrCost (.call 0#16) s0 = 17 := by decide

/-- The first instruction after reset, placed by withFetchWord: LD B,5AH. -/
theorem test_first_instruction_after_reset :
    (match step (State.reset.withFetchWord 16 0x5A06) with
      | .next t => t.regs.b == 0x5A#8 && t.pc == 0x0002#16 && t.r == 0x01#8 && t.tStates == 7
      | .fault _ | .refused _ => false) = true := by decide

/-! ### Witnesses: for each obligation with hypotheses, values that meet them all -/

/-- The state at PC = 1000H with the instruction's bytes there. -/
def at1000 (bs : List Byte) : State := s0.placeBytes 0x1000#16 bs

theorem test_witness_DecodeInvertsEncode : WellFormed (.rst 0x38#8) = true ∧ WellFormed (.rst 0x00#8) = true := by
  decide

theorem test_witness_EveryDecodedWordIsAnEncoding :
    decode [0xDD#8, 0x46#8, 0x19#8, 0xAA#8] = .ok (.ldRegMemIx .b 0x19#8, [0xAA#8]) := rfl

theorem test_witness_UndefinedEncodingsAreRefused :
    (0xDD#8 = 0xDD#8 ∨ 0xDD#8 = 0xFD#8) ∧ 0x09#8 ≠ 0xCB#8 ∧
      (0x00#8 : Byte) ∉ [0xCB#8, 0xDD#8, 0xED#8, 0xFD#8] ∧
      (0x30#8 : Byte) ≤ 0x30#8 ∧ (0x30#8 : Byte) ≤ 0x37#8 ∧ ¬ (0x30#8 : Byte) ≤ 0x2F#8 ∧ ¬ (0x38#8 : Byte) ≤ 0x37#8 := by
  decide

theorem test_witness_UndefinedEncodingsAreRefused_step :
    let s := at1000 [0xED#8, 0x00#8]
    (s.busGranted = false ∧ s.halted = false ∧ ∃ e u, s.fetch = (.error e, u)) ∧
    (s.Undisturbed ∧ (∀ k, k < 4 → s.isPlain (s.pc + BitVec.ofNat 16 k)) ∧ ∃ e,
      decode [s.byteAt s.pc, s.byteAt (s.pc + 1#16), s.byteAt (s.pc + 2#16), s.byteAt (s.pc + 3#16)] = .error e) :=
  ⟨⟨rfl, rfl, _, _, rfl⟩, .inr rfl, fun _ _ => .inl rfl, _, rfl⟩

/-- Across the end of memory: PC = FFFFH. -/
theorem test_witness_FetchFindsTheInstruction :
    let s : State := State.placeBytes { s0 with pc := 0xFFFF#16 } 0xFFFF#16 [0x06#8, 0x5A#8]
    WellFormed (.ldRegImm .b 0x5A#8) = true ∧ s.Undisturbed ∧ s.HoldsAtPc (.ldRegImm .b 0x5A#8) := by
  refine ⟨rfl, .inr rfl, ?_⟩; unfold State.HoldsAtPc State.isPlain; decide

theorem test_witness_StepRunsTheDecodedInstruction :
    let s := at1000 [0xDD#8, 0x23#8]
    s.busGranted = false ∧ s.halted = false ∧ (s.nextInput.reset && s.nextInput.abandons) = false ∧
      (∃ u v, s.fetch = (.ok .incIx, u) ∧ exec .incIx u = .next v) ∧
      WellFormed .incIx = true ∧ s.Undisturbed ∧ s.HoldsAtPc .incIx ∧ (∃ v, exec .incIx (s.fetched .incIx) = .next v) ∧
      variesInTime .incIx = false := by
  refine ⟨rfl, rfl, rfl, ⟨_, _, rfl, rfl⟩, rfl, .inr rfl, ?_, ⟨_, rfl⟩, rfl⟩
  unfold State.HoldsAtPc State.isPlain; decide

theorem test_witness_NothingIsAcceptedUnlessAllowed_inhibited :
    let s : State := { si 0x1000#16 true .mode1 { q with nmiEdge := true, intLine := true } with noSample := true }
    s.nextInput.reset = false ∧ s.nextInput.busreq = false ∧ s.noSample = true := by decide

theorem test_witness_NothingIsAcceptedUnlessAllowed_masked :
    let s : State := si 0x1000#16 false .mode1 { q with intLine := true }
    s.nextInput.reset = false ∧ s.nextInput.busreq = false ∧ s.atBoundary.nmiPending = false ∧ s.iff1 = false := by
  decide

theorem test_witness_NothingIsAcceptedUnlessAllowed_inactive :
    let s : State := si 0x1000#16 true .mode1 q
    let b : BoundaryInput := { q with events := [.lines 0 false 0x01#8, .pioReset 0] }
    s.nextInput.reset = false ∧ s.nextInput.busreq = false ∧ s.atBoundary.nmiPending = false ∧
      s.atBoundary.intActive s.nextInput = false ∧ s0.inputs = [] ∧
      b.events = [.lines 0 false 0x01#8] ++ [.pioReset 0] := by decide

/-- NMI latched by an edge now, and before. -/
theorem test_witness_NmiIsAccepted :
    let s : State := si 0x1000#16 false .mode1 { q with nmiEdge := true }
    let u : State := { s0 with nmiPending := true }
    (s.Undisturbed ∧ u.Undisturbed) ∧
    (s.mem.wf = true ∧ s.nextInput.reset = false ∧ s.nextInput.resetsResponse = false ∧ s.nextInput.busreq = false ∧
      s.noSample = false ∧ s.nextInput.nmiEdge = true) ∧
    (u.mem.wf = true ∧ u.nextInput.reset = false ∧ u.nextInput.resetsResponse = false ∧ u.nextInput.busreq = false ∧
      u.noSample = false ∧ u.nmiPending = true) := by
  refine ⟨⟨.inr rfl, .inr rfl⟩, ?_⟩; decide

/-- The hypotheses of MaskableInterruptIsAccepted, for a mode and the byte on the bus. -/
def intWitness (im : IntMode) (v : Byte) : Bool :=
  let s : State := si 0x1000#16 true im { q with intLine := true, busByte := v }
  s.mem.wf && s.cycleDma.isEmpty && !s.nextInput.reset && !s.nextInput.resetsResponse && !s.nextInput.busreq &&
    !s.noSample && !s.atBoundary.nmiPending && s.iff1 &&
    s.atBoundary.intActive s.nextInput && s.atBoundary.ackByte s.nextInput.busByte == v

theorem test_witness_MaskableInterruptIsAccepted :
    intWitness .mode0 0xFF#8 = true ∧ intWitness .mode0 0xC7#8 = true ∧ intWitness .mode0 0xCD#8 = true ∧
      intWitness .mode1 0x55#8 = true ∧ intWitness .mode2 0x12#8 = true ∧
      (0xC7#8 &&& 0xC7#8 = 0xC7#8 ∧ 0xFF#8 &&& 0xC7#8 = 0xC7#8 ∧ 0xCD#8 &&& 0xC7#8 ≠ 0xC7#8) := by decide

/-- Mode 0, the bytes beside the restarts: one that MODE0_INSTR does not list, one that is a whole instruction (INC A),
one that is not (ED). -/
theorem test_witness_MaskableInterruptIsAccepted_mode0 :
    let s (v : Byte) : State := { si 0x1000#16 true .mode0 { q with intLine := true, busByte := v } with
      params := { Params.default with mode0Extra := [0x3C#8, 0xED#8] } }
    let u := State.enterInterrupt { (s 0x3C#8).atBoundary with busGranted := false } .maskable 0x3C#8
    0xCD#8 ∉ (s 0xCD#8).params.mode0Extra ∧ 0x3C#8 ∈ (s 0x3C#8).params.mode0Extra ∧
      decode [0x3C#8] = .ok (.incReg .a, []) ∧ (∃ e, decode [0xED#8] = .error e) ∧
      ∃ w, exec (.incReg .a) u = .next w :=
  ⟨by decide, by decide, rfl, ⟨_, rfl⟩, _, rfl⟩

theorem test_witness_NoInterruptAfterEiOrDi :
    let s : State := State.placeBytes (si 0x1000#16 true .mode1 { q with nmiEdge := true, intLine := true }) 0x1000#16
      [0xFB#8]
    let t : State := State.placeBytes (si 0x1000#16 true .mode1 { q with intLine := true }) 0x1000#16 [0xF3#8]
    (s.busGranted = false ∧ s.halted = false ∧ s.nextInput.reset = false ∧ s.nextInput.busreq = false ∧
      ∃ u, s.fetch = (.ok .ei, u)) ∧
    (t.busGranted = false ∧ t.halted = false ∧ t.nextInput.reset = false ∧ t.nextInput.busreq = false ∧
      ∃ u, t.fetch = (.ok .di, u)) :=
  ⟨⟨rfl, rfl, rfl, rfl, _, rfl⟩, rfl, rfl, rfl, rfl, _, rfl⟩

theorem test_witness_BusGrantHoldsTheCpu :
    let s : State := si 0x1000#16 true .mode1 { q with busreq := true, nmiEdge := true, dma := [.ioRead 0x0001#16] }
    s.nextInput.reset = false ∧ s.nextInput.busreq = true ∧ s.mem.wf = true ∧
      ({ s with busGranted := true, halted := true } : State).busGranted = true := by decide

theorem test_witness_ResetActsAtAnyTime :
    (si 0x1000#16 true .mode2 { q with reset := true, busreq := true, nmiEdge := true }).nextInput.reset = true ∧
    (let s : State := State.placeBytes (si 0x1000#16 true .mode2 { q with reset := true, abandons := true }) 0x1000#16
      [0x36#8, 0x5A#8]
    s.mem.wf = true ∧ s.busGranted = false ∧ s.halted = false ∧ s.nextInput.reset = true ∧
      s.nextInput.abandons = true ∧ ∃ u v, s.fetch = (.ok (.ldMemHlImm 0x5A#8), u) ∧
        exec (.ldMemHlImm 0x5A#8) u = .next v) :=
  ⟨rfl, rfl, rfl, rfl, rfl, rfl, _, _, rfl, rfl⟩

/-- RESET in the response to an NMI, and to an INT. -/
theorem test_witness_ResetActsAtAnyTime_response :
    let s (nmi : Bool) : State := si 0x1000#16 true .mode1
      { q with nmiEdge := nmi, intLine := true, resetsResponse := true }
    let u (nmi : Bool) : State := { (s nmi).atBoundary with busGranted := false }
    (∀ nmi, (s nmi).mem.wf = true ∧ (s nmi).nextInput.reset = false ∧ (s nmi).nextInput.busreq = false ∧
      (s nmi).noSample = false ∧ (s nmi).nextInput.resetsResponse = true) ∧
    (u true).nmiPending = true ∧
    (u false).nmiPending = false ∧ (u false).iff1 = true ∧ (u false).intActive (s false).nextInput = true ∧
      ∃ v, (u false).acceptInt (s false).nextInput.busByte = .next v :=
  ⟨by decide, rfl, rfl, rfl, rfl, _, rfl⟩

theorem test_witness_HaltWaitsForAnInterrupt :
    let s : State := { s0 with halted := true, iff1 := true, iff2 := true }
    s.busGranted = false ∧ s.halted = true ∧ s.inputs = [] ∧ s.devices = [] ∧ s.nmiPending = false ∧
      s.noSample = false ∧ s.Undisturbed ∧ s.isPlain s.pc := ⟨rfl, rfl, rfl, rfl, rfl, rfl, .inr rfl, .inl rfl⟩

theorem test_witness_Iff1IsSetOnlyByEiAndRetn :
    (s0.iff1 = false ∧ ∃ t, exec .ei s0 = .next t ∧ t.iff1 = true) ∧
    (∃ t, exec .retn { s0 with iff2 := true } = .next t ∧ t.iff1 = true) ∧
    (∃ t, exec .reti { s0 with iff2 := true, params := { Params.default with retiCopiesIff2 := true } } = .next t ∧
      t.iff1 = true) ∧
    (∃ t, (si 0x1000#16 true .mode1 q).boundary = .next t ∧ t.iff1 = true) :=
  ⟨⟨rfl, _, rfl, rfl⟩, ⟨_, rfl, rfl⟩, ⟨_, rfl, rfl⟩, _, rfl, rfl⟩

theorem test_witness_OnlyTheNamedInstructionsWriteControlState :
    usesIoSpace .reti = false ∧ usesIoSpace .nop = false ∧ (∃ t, exec .nop s0 = .next t) ∧
      (∃ t, exec .otdr s0 = .next t) ∧ s0.params.retiCopiesIff2 = false ∧ s0.Undisturbed :=
  ⟨rfl, rfl, ⟨_, rfl⟩, ⟨_, rfl⟩, rfl, .inr rfl⟩

theorem test_witness_OtherInstructionsKeepTheFlags :
    writesFlags (.popPair .bc) = false ∧ writesFlags (.djnz 0xFE#8) = false ∧ ∃ t, exec (.popPair .bc) s0 = .next t :=
  ⟨rfl, rfl, _, rfl⟩

theorem test_witness_EveryStepKeepsStateOk : StateOk s0 ∧ ∃ t, step s0 = .next t :=
  ⟨⟨rfl, fun h => h, fun h => h, fun d h => by cases h⟩, _, rfl⟩

/-- A step that tries to write to a ROM: LD (HL),n with HL = 0000H. -/
theorem test_witness_NoStepChangesRom :
    let s : State := State.placeBytes { s0 with memMap := [{ base := 0, size := 0x1000, kind := .rom }] } 0x1000#16
      [0x36#8, 0x5A#8]
    s.mem.wf = true ∧ kindAt s.memMap 0x0000#16 = some .rom ∧ kindAt s.memMap 0x0FFF#16 = some .rom ∧
      ∃ t, step s = .next t := ⟨rfl, rfl, rfl, _, rfl⟩

/-- The smallest and the largest packed BCD byte. -/
theorem test_witness_DaaGivesTheDecimalResult : isBcd 0x00#8 ∧ isBcd 0x99#8 ∧ ¬ isBcd 0x9A#8 := by
  unfold isBcd; decide

/-- The statements about memory ask for its canonical form and that no other bus master acts meanwhile: MemoryCycles,
ByteStores, WordStores, Pushes, StackExchanges, BlockTransfers, IncrementAndDecrement, RotatesAndShifts,
BitInstructions, CallsAndRestarts, BlockInputAndOutput. The second state has an access queued that DMA_GRAIN =
instruction keeps from happening. -/
theorem test_witness_canonical_memory :
    State.reset.mem.wf = true ∧ State.reset.Undisturbed ∧ (at1000 [0x01#8, 0x02#8, 0x03#8]).mem.wf = true ∧
      State.Undisturbed { s0 with params := { Params.default with dmaGrain := .instruction }, cycleDma := [[]] } :=
  ⟨rfl, .inr rfl, rfl, .inl rfl⟩

/-- What MemoryCycles tells apart: a queued access of the other master, and the four kinds of address. -/
theorem test_witness_MemoryCycles :
    (let u : State := { s0 with cycleDma := [[.memRead 0x9000#16]] }
     u.params.dmaGrain = .machineCycle ∧ u.cycleDma = [.memRead 0x9000#16] :: []) ∧
    (let s : State := { s0 with memMap := [{ base := 0, size := 0x10, kind := .rom }, { base := 0x10, size := 0x10, kind := .device },
                                  { base := 0x20, size := 0x10, kind := .absent }] }
     s.isPlain 0x0030#16 ∧ s.isPlain 0x000F#16 ∧ kindAt s.memMap 0x0010#16 = some .device ∧
       kindAt s.memMap 0x001F#16 = some .device ∧ kindAt s.memMap 0x002F#16 = some .absent) :=
  ⟨⟨rfl, rfl⟩, .inl rfl, .inr rfl, rfl, rfl, rfl⟩

/-- A CTC at 10H and a PIO at 20H: the ports 20H and 23H are the PIO's, 24H is nobody's. -/
theorem test_witness_InputOutputCycles :
    let s : State := { s0 with devices := [.ctc ctc, .pio pio] }
    s.devices = [.ctc ctc] ++ .pio pio :: [] ∧ (∀ x ∈ [Device.ctc ctc], x.claims 0x23#8 = false) ∧
      (Device.pio pio).claims 0x23#8 = true ∧ (Device.pio pio).claims 0x20#8 = true ∧
      (Device.ctc ctc).claims 0x10#8 = true ∧ ∀ x ∈ s.devices, x.claims 0x24#8 = false := by decide

theorem test_witness_ByteLoads :
    s0.params.rExact = true ∧ ({ s0 with params := { Params.default with rExact := false } } : State).params.rExact = false :=
  ⟨rfl, rfl⟩

/-- A stack that wraps: SP = 0001H. -/
theorem test_witness_PushThenPopRestores :
    let s : State := { s0 with sp := 0x0001#16 }
    s.mem.wf = true ∧ s.Undisturbed ∧ kindAt s.memMap (s.sp - 1#16) = none ∧ kindAt s.memMap (s.sp - 2#16) = none :=
  ⟨rfl, .inr rfl, rfl, rfl⟩

/-- Blocks of one byte and of two bytes. -/
def ldirState (n : Byte) : State :=
  State.placeBytes { s0 with regs := { r0 with c := n, h := 0x20#8, d := 0x30#8 } } 0x1000#16 [0xED#8, 0xB0#8]

/-- The hypotheses of LdirCopiesABlock for a block of n bytes. -/
def LdirWitness (n : Nat) (s : State) : Prop :=
  s.mem.wf = true ∧ s.memMap = [] ∧ s.inputs = [] ∧ s.devices = [] ∧ s.Undisturbed ∧ s.busGranted = false ∧
    s.halted = false ∧ s.nmiPending = false ∧ 1 ≤ n ∧ n < 65536 ∧ s.bc = BitVec.ofNat 16 n ∧
    s.byteAt s.pc = 0xED#8 ∧ s.byteAt (s.pc + 1#16) = 0xB0#8 ∧
    (∀ k, k < n → s.de + BitVec.ofNat 16 k ≠ s.pc ∧ s.de + BitVec.ofNat 16 k ≠ s.pc + 1#16) ∧
    (∀ j k, j < k → k < n → s.de + BitVec.ofNat 16 j ≠ s.hl + BitVec.ofNat 16 k)

theorem test_witness_LdirCopiesABlock : LdirWitness 1 (ldirState 1#8) ∧ LdirWitness 2 (ldirState 2#8) := by
  have h : ∀ n : Nat, n = 1 ∨ n = 2 → ∀ k, k < n → ∀ j, j < k →
      (ldirState (BitVec.ofNat 8 n)).de + BitVec.ofNat 16 j ≠ (ldirState (BitVec.ofNat 8 n)).hl + BitVec.ofNat 16 k := by
    rintro n (rfl | rfl) <;> decide
  exact ⟨⟨rfl, rfl, rfl, rfl, .inr rfl, rfl, rfl, rfl, by decide, by decide, by decide, by decide, by decide,
      by decide, fun j k hj hk => h 1 (.inl rfl) k hk j hj⟩,
    rfl, rfl, rfl, rfl, .inr rfl, rfl, rfl, rfl, by decide, by decide, by decide, by decide, by decide,
      by decide, fun j k hj hk => h 2 (.inr rfl) k hk j hj⟩

/-- The bit numbers of RotateFunctions and BitInstructions. -/
theorem test_witness_bit_numbers : 0 < 8 ∧ 7 < 8 ∧ ¬ 8 < 8 := by decide

theorem test_witness_CallsAndRestarts :
    condHolds .z { Flags.clear with z := true } = true ∧ condHolds .z Flags.clear = false := by decide

/-- Channel 2 a timer with prescaler 16 and time constant 2, channel 1 wired to it. -/
theorem test_witness_CtcTimerInterval :
    let c : Ctc := { ctc with ch2 := { ch with control := 0x85#8, run := .counting, timeConstant := 0x02#8, down := 0x02#8 }
                              ch1 := { atOne 0xC1#8 with source := some 2#2 } }
    let x := c.channel 2#2
    x.run = .counting ∧ x.control.getLsbD 6 = false ∧ x.prescale = 0 ∧ x.down = x.timeConstant ∧
      31 < (if x.control.getLsbD 5 then 256 else 16) * countOf x.timeConstant := by decide

/-- A counter with T = 1 and one with T = 256; a running timer; waiting channels; channel 0 wired to channel 1 and to no
other; what happens to a channel, without and with a pulse. -/
theorem test_witness_CtcCounting :
    (let x := atOne 0xC1#8
     x.run = .counting ∧ x.control.getLsbD 6 = true ∧ x.down = x.timeConstant ∧ 0 < countOf x.timeConstant) ∧
    (let x : CtcChannel := { ch with control := 0xC1#8, run := .counting }
     x.run = .counting ∧ x.control.getLsbD 6 = true ∧ x.down = x.timeConstant ∧ 255 < countOf x.timeConstant) ∧
    ((atOne 0x81#8).run = .counting ∧ (atOne 0x81#8).control.getLsbD 6 = false) ∧
    (({ ch with run := .waiting } : CtcChannel).control.getLsbD 6 = false ∧
      ({ ch with run := .waiting, control := 0xC1#8 } : CtcChannel).control.getLsbD 6 = true ∧ ch.run = .stopped) ∧
    (let c : Ctc := { ctc with ch1 := { atOne 0xC1#8 with source := some 0#2 } }
     0#2 ≠ 3#2 ∧ 1#2 ≠ 0#2 ∧ (∀ i, (c.channel i).source = some 0#2 ↔ i = 1#2) ∧
       (∀ i, (c.channel i).source ≠ some 1#2)) ∧
    ((CtcChannel.tick { atOne 0x81#8 with prescale := 15 }).zeroCounts = (atOne 0x81#8).zeroCounts + 1 ∧
      (atOne 0x81#8).tick.zeroCounts = (atOne 0x81#8).zeroCounts) ∧
    ∀ i, (ctc.channel i).source ≠ some 0#2 := by decide

/-- The wiring of the last but one clause of CtcCounting: channel 2 drives channels 1 and 3, channel 1 drives channel 0. -/
theorem test_witness_CtcCounting_chain :
    let c : Ctc := { ctc with ch1 := { atOne 0xC1#8 with source := some 2#2 }, ch3 := { atOne 0xC1#8 with source := some 2#2 }
                              ch0 := { atOne 0xC1#8 with source := some 1#2 }, ch2 := atOne 0xC1#8 }
    let depth (i : BitVec 2) : Nat := if i = 2#2 then 0 else if i = 0#2 then 2 else 1
    (∀ i, depth i < 4) ∧ (∀ i j, j ≠ 3#2 → (c.channel i).source = some j → depth j < depth i) ∧
      (c.channel 2#2).activeEdge.zeroCounts ≠ (c.channel 2#2).zeroCounts ∧
      [0#2, 1#2, 2#2, 3#2].map (fun i => ((c.update 2#2 CtcChannel.activeEdge).channel i).zeroCounts) = [1, 1, 1, 1] := by
  decide

theorem test_witness_CtcProgramming :
    ({ ch with constantNext := true }.constantNext = true ∧ { ch with run := .counting }.run = .counting) ∧
    (ch.constantNext = false ∧ (0x03#8 : Byte).getLsbD 0 = true ∧ (0x03#8 : Byte).getLsbD 1 = true) ∧
    ((0x05#8 : Byte).getLsbD 0 = true ∧ (0x05#8 : Byte).getLsbD 1 = false ∧
      (0x05#8 : Byte).getLsbD 4 = ch.control.getLsbD 4 ∧ (0x15#8 : Byte).getLsbD 4 ≠ ch.control.getLsbD 4) ∧
    (ctc.ch0.constantNext = false ∧ (0xA8#8 : Byte).getLsbD 0 = false) ∧
    (3#2 ≠ 0#2 ∧ (∀ i, (ctc.channel i).source ≠ some 3#2) ∧ (ch.write 0x05#8).zeroCounts = ch.zeroCounts) ∧
    (ctc.resetWired = true ∧ { ctc with resetWired := false }.resetWired = false) ∧
    ({ s0 with devices := [.pio pio, .ctc ctc] } : State).devices[1]? = some (.ctc ctc) := by decide

theorem test_witness_DaisyChain :
    let s : State := { s0 with devices := [.ctc { ctc with
      ch1 := { ch with control := 0x80#8, pending := true }, ch3 := { ch with underService := true } }, .pio pio] }
    requester (chain s.devices) = some 1 ∧ (chain s.devices)[1]?.isSome = true ∧ requester (chain s0.devices) = none ∧
      inService (chain s.devices) = some 3 ∧ (chain s.devices)[3]?.isSome = true ∧ inService (chain s0.devices) = none ∧
      ((chain s.devices)[3]?.map Slot.underService) = some true := by decide

theorem test_witness_PioControlWords :
    ({ port with next := .direction }.next = .direction ∧ { port with next := .mask }.next = .mask ∧
      port.next = .command) ∧
    ((0x46#8 : Byte).getLsbD 0 = false ∧ (0xCF#8 : Byte) &&& 0x0F#8 = 0x0F#8 ∧ (0x97#8 : Byte) &&& 0x0F#8 = 0x07#8 ∧
      (0x83#8 : Byte) &&& 0x0F#8 = 0x03#8) ∧
    ((0x05#8 : Byte).getLsbD 0 = true ∧ (0x05#8 : Byte) &&& 0x0F#8 ∉ [0x0F#8, 0x07#8, 0x03#8]) ∧
    pio.portA.mode ≠ .bidirectional := by decide

theorem test_witness_PioTransfers :
    port.mode = .output ∧ { port with mode := .input }.mode = .input ∧
    ({ port with mode := .bitControl }.mode = .bitControl ∧ port.next = .command ∧ port.andLogic = false) ∧
    { port with mode := .bitControl, andLogic := true }.andLogic = true ∧
    ({ port with next := .mask }.next ≠ .command ∧ port.mode ≠ .bitControl) ∧ pio.portA.mode ≠ .bidirectional := by
  decide

/-- Port A bidirectional, port B in bit mode. -/
theorem test_witness_PioBidirectional :
    let p : Pio := { pio with portA := { port with mode := .bidirectional }, portB := { port with mode := .bitControl } }
    p.portA.mode = .bidirectional ∧ p.portB.mode = .bitControl := by decide

end Sys2Proof.Tests
end

/-! ## What an instruction may do (10_state.md): one relation, and every meaning within it -/

namespace Sys2Proof.Machine

/-! ### The moves a meaning is put together of -/

/-- The meaning of `i`, begun in `s`, may have got to this state: by memory cycles, by writing the CPU's working
registers, and by what the spec keeps for the instructions that it names (R32 to R38, R45, R61). -/
inductive MayReach (i : Instr) (s : State) : State → Prop where
  | start : MayReach i s s
  | read8 {t : State} (a : Word) : MayReach i s t → MayReach i s (t.afterRead8 a)
  | write8 {t : State} (a : Word) (v : Byte) : MayReach i s t → MayReach i s (t.write8 a v)
  | ioRead {t : State} (io : usesIoSpace i = true) (port : Word) : MayReach i s t → MayReach i s (t.afterIoRead port)
  | ioWrite {t : State} (io : usesIoSpace i = true) (port : Word) (v : Byte) :
      MayReach i s t → MayReach i s (t.ioWrite port v)
  /-- Registers and free values; the flags only by an instruction that R45 lists. -/
  | working {t : State} (k : Bank) (ix iy sp pc : Word) (n : Nat) (flags : writesFlags i = true ∨ k.f = t.regs.f) :
      MayReach i s t → MayReach i s { t with regs := k, ix := ix, iy := iy, sp := sp, pc := pc, draws := n }
  | setI {t : State} (named : i = .ldIA) (v : Byte) : MayReach i s t → MayReach i s { t with i := v }
  | setR {t : State} (named : i = .ldRA) (v : Byte) : MayReach i s t → MayReach i s { t with r := v }
  | setIm {t : State} (named : i = .im0 ∨ i = .im1 ∨ i = .im2) (m : IntMode) :
      MayReach i s t → MayReach i s { t with im := m }
  | setEnables {t : State} (on : Bool) (named : i = if on then .ei else .di) :
      MayReach i s t → MayReach i s { t with iff1 := on, iff2 := on, noSample := true }
  | copyIff2 {t : State} (named : i = .retn ∨ (i = .reti ∧ s.params.retiCopiesIff2 = true)) :
      MayReach i s t → MayReach i s { t with iff1 := s.iff2 }
  | halt {t : State} (named : i = .halt) : MayReach i s t → MayReach i s { t with halted := true }
  | retiSeen {t : State} (named : i = .reti) : MayReach i s t → MayReach i s t.retiSeen
  | setAlt {t : State} (named : i = .exAfAf ∨ i = .exx) (k : Bank) : MayReach i s t → MayReach i s { t with alt := k }

/-! ### The shared operations are such moves -/

namespace MayReach
variable {i : Instr} {s t : State}

theorem drew (n : Nat) (h : MayReach i s t) : MayReach i s (t.drew n) := .working _ _ _ _ _ _ (.inr rfl) h

theorem countRDraw (h : MayReach i s t) : MayReach i s t.countRDraw := .working _ _ _ _ _ _ (.inr rfl) h

theorem setReg (r : Reg8) (v : Byte) (h : MayReach i s t) : MayReach i s (t.setReg r v) :=
  .working _ _ _ _ _ _ (.inr (by cases r <;> rfl)) h

theorem setA (v : Byte) (h : MayReach i s t) : MayReach i s (t.setA v) := .working _ _ _ _ _ _ (.inr rfl) h

theorem setBc (v : Word) (h : MayReach i s t) : MayReach i s (t.setBc v) := .working _ _ _ _ _ _ (.inr rfl) h

theorem setDe (v : Word) (h : MayReach i s t) : MayReach i s (t.setDe v) := .working _ _ _ _ _ _ (.inr rfl) h

theorem setHl (v : Word) (h : MayReach i s t) : MayReach i s (t.setHl v) := .working _ _ _ _ _ _ (.inr rfl) h

theorem setIx (v : Word) (h : MayReach i s t) : MayReach i s { t with ix := v } := .working _ _ _ _ _ _ (.inr rfl) h

theorem setIy (v : Word) (h : MayReach i s t) : MayReach i s { t with iy := v } := .working _ _ _ _ _ _ (.inr rfl) h

theorem setSp (v : Word) (h : MayReach i s t) : MayReach i s { t with sp := v } := .working _ _ _ _ _ _ (.inr rfl) h

theorem jumpTo (v : Word) (h : MayReach i s t) : MayReach i s (t.jumpTo v) := .working _ _ _ _ _ _ (.inr rfl) h

theorem jumpRelative (e : Byte) (h : MayReach i s t) : MayReach i s (t.jumpRelative e) :=
  .working _ _ _ _ _ _ (.inr rfl) h

theorem setPair (p : Pair) (v : Word) (h : MayReach i s t) : MayReach i s (t.setPair p v) := by
  cases p with
  | bc => exact h.setBc v
  | de => exact h.setDe v
  | hl => exact h.setHl v
  | sp => exact h.setSp v

theorem setFlags (w : writesFlags i = true) (f : Flags) (h : MayReach i s t) : MayReach i s (t.setFlags f) :=
  .working _ _ _ _ _ _ (.inl w) h

theorem setAF (w : writesFlags i = true) (p : Byte × Flags) (h : MayReach i s t) : MayReach i s (t.setAF p) :=
  .working _ _ _ _ _ _ (.inl w) h

theorem setRegF (w : writesFlags i = true) (r : Reg8) (p : Byte × Flags) (h : MayReach i s t) :
    MayReach i s (t.setRegF r p) :=
  (h.setReg r p.1).setFlags w p.2

theorem setHlF (w : writesFlags i = true) (p : Word × Flags) (h : MayReach i s t) : MayReach i s (t.setHlF p) :=
  (h.setHl p.1).setFlags w p.2

theorem setIxF (w : writesFlags i = true) (p : Word × Flags) (h : MayReach i s t) : MayReach i s (t.setIxF p) :=
  .working _ _ _ _ _ _ (.inl w) h

theorem setIyF (w : writesFlags i = true) (p : Word × Flags) (h : MayReach i s t) : MayReach i s (t.setIyF p) :=
  .working _ _ _ _ _ _ (.inl w) h

theorem bitTest (w : writesFlags i = true) (b : Bool) (h : MayReach i s t) : MayReach i s (t.bitTest b) :=
  (h.drew 2).setFlags w _

theorem read16 (a : Word) (h : MayReach i s t) : MayReach i s (t.afterRead16 a) := (h.read8 a).read8 _

theorem write16 (a v : Word) (h : MayReach i s t) : MayReach i s (t.write16 a v) := (h.write8 a _).write8 _ _

theorem push16 (v : Word) (h : MayReach i s t) : MayReach i s (t.push16 v) := ((h.write8 _ _).write8 _ _).setSp _

theorem drop16 (h : MayReach i s t) : MayReach i s t.drop16 := (h.read16 _).setSp _

theorem replaceTop (v : Word) (h : MayReach i s t) : MayReach i s (t.replaceTop v) :=
  ((h.read16 _).write8 _ _).write8 _ _

theorem callTo (v : Word) (h : MayReach i s t) : MayReach i s (t.callTo v) := (h.push16 _).jumpTo v

theorem returnToPopped (h : MayReach i s t) : MayReach i s t.returnToPopped := h.drop16.jumpTo _

theorem pushQ (q : PairQ) (h : MayReach i s t) : MayReach i s (t.pushQ q) := by
  cases q with
  | bc => exact h.push16 _
  | de => exact h.push16 _
  | hl => exact h.push16 _
  | af => exact (h.drew 2).push16 _

/-- Only POP AF writes the flags. -/
theorem popQ (q : PairQ) (w : q = .af → writesFlags i = true) (h : MayReach i s t) : MayReach i s (t.popQ q) := by
  cases q with
  | bc => exact h.drop16.setBc _
  | de => exact h.drop16.setDe _
  | hl => exact h.drop16.setHl _
  | af => exact h.drop16.setAF (w rfl) _

/-- A read, a change and a write back with flags: INC, DEC and the rotates and shifts of memory (R66). -/
theorem writeBackF (w : writesFlags i = true) (a : Word) (p : Byte × Flags) (h : MayReach i s t) :
    MayReach i s ((t.afterRead8 a).writeF a p) :=
  ((h.read8 a).write8 a _).setFlags w _

theorem changeAt (a : Word) (f : Byte → Byte) (h : MayReach i s t) : MayReach i s (t.changeAt a f) :=
  (h.read8 a).write8 a _

theorem rotateDigits (w : writesFlags i = true) (digits : Byte → Byte → Byte × Byte) (h : MayReach i s t) :
    MayReach i s (t.rotateDigits digits) :=
  ((h.read8 _).write8 _ _).setAF w _

theorem transferStep (w : writesFlags i = true) (up : Bool) (h : MayReach i s t) : MayReach i s (t.transferStep up) :=
  (((((h.read8 _).write8 _ _).setDe _).setHl _).setBc _).setFlags w _

theorem searchStep (w : writesFlags i = true) (up : Bool) (h : MayReach i s t) : MayReach i s (t.searchStep up) :=
  (((h.read8 _).setHl _).setBc _).setFlags w _

theorem blockIoDone (w : writesFlags i = true) (up : Bool) (h : MayReach i s t) : MayReach i s (t.blockIoDone up) :=
  (((h.setHl _).setReg _ _).drew 4).setFlags w _

theorem inputStep (w : writesFlags i = true) (io : usesIoSpace i = true) (up : Bool) (h : MayReach i s t) :
    MayReach i s (t.inputStep up) :=
  ((h.ioRead io _).write8 _ _).blockIoDone w up

theorem outputStep (w : writesFlags i = true) (io : usesIoSpace i = true) (up : Bool) (h : MayReach i s t) :
    MayReach i s (t.outputStep up) :=
  ((h.read8 _).ioWrite io _ _).blockIoDone w up

theorem inputTo (w : writesFlags i = true) (io : usesIoSpace i = true) (d : InDest) (h : MayReach i s t) :
    MayReach i s (t.inputTo d) := by
  cases d with
  | reg r => exact ((h.ioRead io _).setFlags w _).setReg _ _
  | flagsOnly => exact (h.ioRead io _).setFlags w _

/-- Where two ways are open, both must be ways. -/
theorem ite {c : Prop} [Decidable c] {u : State} (h : MayReach i s t) (h' : MayReach i s u) :
    MayReach i s (if c then t else u) := by
  split
  · exact h
  · exact h'

theorem repeatInstr (h : MayReach i s t) : MayReach i s t.repeatInstr := .working _ _ _ _ _ _ (.inr rfl) h

theorem repeatTransfer (h : MayReach i s t) : MayReach i s t.repeatTransfer := h.ite h.repeatInstr

theorem repeatSearch (h : MayReach i s t) : MayReach i s t.repeatSearch := h.ite h.repeatInstr

theorem repeatIo (h : MayReach i s t) : MayReach i s t.repeatIo := h.ite h.repeatInstr

/-- RETI leaves IFF1 alone unless RETI_COPIES_IFF2 says otherwise (R427, log 16). -/
theorem returnFromInt : MayReach .reti s s.returnFromInt := by
  have h : MayReach .reti s s.retiSeen.returnToPopped := (MayReach.retiSeen rfl .start).returnToPopped
  unfold State.returnFromInt
  cases hp : s.params.retiCopiesIff2 with
  | true => exact .copyIff2 (.inr ⟨rfl, hp⟩) h
  | false =>
    have same : s.iff1 = s.retiSeen.returnToPopped.iff1 := by simp
    rw [same]
    exact h

end MayReach

/-! ### Every instruction completes, and within these moves -/

/-- Every instruction has a next state (R480), and gets there by moves that are open to it. -/
theorem exec_mayReach (i : Instr) (s : State) : ∃ t, exec i s = .next t ∧ MayReach i s t := by
  match i with
  -- 8-bit loads
  | .ldRegReg .. | .ldRegImm .. => exact ⟨_, rfl, .setReg _ _ .start⟩
  | .ldRegMemHl _ | .ldRegMemIx .. | .ldRegMemIy .. => exact ⟨_, rfl, .setReg _ _ (.read8 _ .start)⟩
  | .ldMemHlReg _ | .ldMemIxReg .. | .ldMemIyReg .. | .ldMemHlImm _ | .ldMemIxImm .. | .ldMemIyImm .. | .ldMemBcA
  | .ldMemDeA | .ldMemNnA _ => exact ⟨_, rfl, .write8 _ _ .start⟩
  | .ldAMemBc | .ldAMemDe | .ldAMemNn _ => exact ⟨_, rfl, .setA _ (.read8 _ .start)⟩
  | .ldAI => exact ⟨_, rfl, .setAF rfl _ .start⟩
  | .ldAR => exact ⟨_, rfl, .setAF rfl _ (.countRDraw .start)⟩
  | .ldIA => exact ⟨_, rfl, .setI rfl _ .start⟩
  | .ldRA => exact ⟨_, rfl, .setR rfl _ .start⟩
  -- 16-bit loads
  | .ldPairImm .. => exact ⟨_, rfl, .setPair _ _ .start⟩
  | .ldIxImm _ => exact ⟨_, rfl, .setIx _ .start⟩
  | .ldIyImm _ => exact ⟨_, rfl, .setIy _ .start⟩
  | .ldHlMemNn _ => exact ⟨_, rfl, .setHl _ (.read16 _ .start)⟩
  | .ldPairMemNn .. => exact ⟨_, rfl, .setPair _ _ (.read16 _ .start)⟩
  | .ldIxMemNn _ => exact ⟨_, rfl, .setIx _ (.read16 _ .start)⟩
  | .ldIyMemNn _ => exact ⟨_, rfl, .setIy _ (.read16 _ .start)⟩
  | .ldMemNnHl _ | .ldMemNnPair .. | .ldMemNnIx _ | .ldMemNnIy _ => exact ⟨_, rfl, .write16 _ _ .start⟩
  | .ldSpHl | .ldSpIx | .ldSpIy => exact ⟨_, rfl, .setSp _ .start⟩
  | .pushPair _ => exact ⟨_, rfl, .pushQ _ .start⟩
  | .pushIx | .pushIy => exact ⟨_, rfl, .push16 _ .start⟩
  | .popPair q => exact ⟨_, rfl, .popQ q (fun h => h ▸ rfl) .start⟩
  | .popIx => exact ⟨_, rfl, .setIx _ (.drop16 .start)⟩
  | .popIy => exact ⟨_, rfl, .setIy _ (.drop16 .start)⟩
  -- exchanges and blocks
  | .exDeHl => exact ⟨_, rfl, .setHl _ (.setDe _ .start)⟩
  | .exAfAf => exact ⟨_, rfl, .setAlt (.inl rfl) _ (.working _ _ _ _ _ _ (.inl rfl) .start)⟩
  | .exx =>
    exact ⟨_, rfl, .setAlt (.inr rfl) _
      (.working { s.alt with a := s.regs.a, f := s.regs.f } _ _ _ _ _ (.inr rfl) .start)⟩
  | .exMemSpHl => exact ⟨_, rfl, .setHl _ (.replaceTop _ .start)⟩
  | .exMemSpIx => exact ⟨_, rfl, .setIx _ (.replaceTop _ .start)⟩
  | .exMemSpIy => exact ⟨_, rfl, .setIy _ (.replaceTop _ .start)⟩
  | .ldi | .ldd => exact ⟨_, rfl, .transferStep rfl _ .start⟩
  | .ldir | .lddr => exact ⟨_, rfl, .repeatTransfer (.transferStep rfl _ .start)⟩
  | .cpi | .cpd => exact ⟨_, rfl, .searchStep rfl _ .start⟩
  | .cpir | .cpdr => exact ⟨_, rfl, .repeatSearch (.searchStep rfl _ .start)⟩
  -- 8-bit arithmetic and logic
  | .addReg _ | .addImm _ | .adcReg _ | .adcImm _ | .subReg _ | .subImm _ | .sbcReg _ | .sbcImm _ | .andReg _
  | .andImm _ | .orReg _ | .orImm _ | .xorReg _ | .xorImm _ => exact ⟨_, rfl, .setAF rfl _ .start⟩
  | .addMemHl | .addMemIx _ | .addMemIy _ | .adcMemHl | .adcMemIx _ | .adcMemIy _ | .subMemHl | .subMemIx _
  | .subMemIy _ | .sbcMemHl | .sbcMemIx _ | .sbcMemIy _ | .andMemHl | .andMemIx _ | .andMemIy _ | .orMemHl
  | .orMemIx _ | .orMemIy _ | .xorMemHl | .xorMemIx _ | .xorMemIy _ =>
    exact ⟨_, rfl, .setAF rfl _ (.read8 _ .start)⟩
  | .cpReg _ | .cpImm _ => exact ⟨_, rfl, .setFlags rfl _ .start⟩
  | .cpMemHl | .cpMemIx _ | .cpMemIy _ => exact ⟨_, rfl, .setFlags rfl _ (.read8 _ .start)⟩
  | .incReg _ | .decReg _ => exact ⟨_, rfl, .setRegF rfl _ _ .start⟩
  | .incMemHl | .incMemIx _ | .incMemIy _ | .decMemHl | .decMemIx _ | .decMemIy _ =>
    exact ⟨_, rfl, .writeBackF rfl _ _ .start⟩
  -- general arithmetic and CPU control
  | .daa | .cpl | .neg => exact ⟨_, rfl, .setAF rfl _ .start⟩
  | .ccf => exact ⟨_, rfl, .setFlags rfl _ (.drew 1 .start)⟩
  | .scf => exact ⟨_, rfl, .setFlags rfl _ .start⟩
  | .nop => exact ⟨_, rfl, .start⟩
  | .halt => exact ⟨_, rfl, .halt rfl .start⟩
  | .di => exact ⟨_, rfl, .setEnables false rfl .start⟩
  | .ei => exact ⟨_, rfl, .setEnables true rfl .start⟩
  | .im0 => exact ⟨_, rfl, .setIm (.inl rfl) _ .start⟩
  | .im1 => exact ⟨_, rfl, .setIm (.inr (.inl rfl)) _ .start⟩
  | .im2 => exact ⟨_, rfl, .setIm (.inr (.inr rfl)) _ .start⟩
  -- 16-bit arithmetic
  | .addHlPair _ | .adcHlPair _ | .sbcHlPair _ => exact ⟨_, rfl, .setHlF rfl _ (.drew 1 .start)⟩
  | .addIxPair _ => exact ⟨_, rfl, .setIxF rfl _ (.drew 1 .start)⟩
  | .addIyPair _ => exact ⟨_, rfl, .setIyF rfl _ (.drew 1 .start)⟩
  | .incPair _ | .decPair _ => exact ⟨_, rfl, .setPair _ _ .start⟩
  | .incIx | .decIx => exact ⟨_, rfl, .setIx _ .start⟩
  | .incIy | .decIy => exact ⟨_, rfl, .setIy _ .start⟩
  -- rotates and shifts
  | .rlca | .rla | .rrca | .rra => exact ⟨_, rfl, .setAF rfl _ .start⟩
  | .rlcReg _ | .rlReg _ | .rrcReg _ | .rrReg _ | .slaReg _ | .sraReg _ | .srlReg _ =>
    exact ⟨_, rfl, .setRegF rfl _ _ .start⟩
  | .rlcMemHl | .rlcMemIx _ | .rlcMemIy _ | .rlMemHl | .rlMemIx _ | .rlMemIy _ | .rrcMemHl | .rrcMemIx _
  | .rrcMemIy _ | .rrMemHl | .rrMemIx _ | .rrMemIy _ | .slaMemHl | .slaMemIx _ | .slaMemIy _ | .sraMemHl
  | .sraMemIx _ | .sraMemIy _ | .srlMemHl | .srlMemIx _ | .srlMemIy _ => exact ⟨_, rfl, .writeBackF rfl _ _ .start⟩
  | .rld | .rrd => exact ⟨_, rfl, .rotateDigits rfl _ .start⟩
  -- bits
  | .bitReg .. => exact ⟨_, rfl, .bitTest rfl _ .start⟩
  | .bitMemHl _ | .bitMemIx .. | .bitMemIy .. => exact ⟨_, rfl, .bitTest rfl _ (.read8 _ .start)⟩
  | .setReg .. | .resReg .. => exact ⟨_, rfl, .setReg _ _ .start⟩
  | .setMemHl _ | .setMemIx .. | .setMemIy .. | .resMemHl _ | .resMemIx .. | .resMemIy .. =>
    exact ⟨_, rfl, .changeAt _ _ .start⟩
  -- jumps, calls and returns
  | .jp _ | .jpHl | .jpIx | .jpIy => exact ⟨_, rfl, .jumpTo _ .start⟩
  | .jpCond .. => exact ⟨_, rfl, .ite (.jumpTo _ .start) .start⟩
  | .jr _ => exact ⟨_, rfl, .jumpRelative _ .start⟩
  | .jrC _ | .jrNc _ | .jrZ _ | .jrNz _ => exact ⟨_, rfl, .ite (.jumpRelative _ .start) .start⟩
  | .djnz _ => exact ⟨_, rfl, .ite (.setReg _ _ .start) (.jumpRelative _ (.setReg _ _ .start))⟩
  | .call _ | .rst _ => exact ⟨_, rfl, .callTo _ .start⟩
  | .callCond .. => exact ⟨_, rfl, .ite (.callTo _ .start) .start⟩
  | .ret => exact ⟨_, rfl, .returnToPopped .start⟩
  | .retCond _ => exact ⟨_, rfl, .ite (.returnToPopped .start) .start⟩
  | .reti => exact ⟨_, rfl, .returnFromInt⟩
  | .retn => exact ⟨_, rfl, .copyIff2 (.inl rfl) (.returnToPopped .start)⟩
  -- input and output
  | .inAImm _ => exact ⟨_, rfl, .setA _ (.ioRead rfl _ .start)⟩
  | .inRegC _ => exact ⟨_, rfl, .inputTo rfl rfl _ .start⟩
  | .ini | .ind => exact ⟨_, rfl, .inputStep rfl rfl _ .start⟩
  | .inir | .indr => exact ⟨_, rfl, .repeatIo (.inputStep rfl rfl _ .start)⟩
  | .outImmA _ | .outCReg _ => exact ⟨_, rfl, .ioWrite rfl _ _ .start⟩
  | .outi | .outd => exact ⟨_, rfl, .outputStep rfl rfl _ .start⟩
  | .otir | .otdr => exact ⟨_, rfl, .repeatIo (.outputStep rfl rfl _ .start)⟩

/-- The same, of a next state in hand. -/
theorem MayReach.of_exec {i : Instr} {s t : State} (h : exec i s = .next t) : MayReach i s t := by
  obtain ⟨u, hu, hr⟩ := exec_mayReach i s
  rw [hu] at h
  cases h
  exact hr

end Sys2Proof.Machine

/-! ## What instructions leave alone: O16, O17, O18 -/

namespace Sys2Proof.Machine

/-! ### What the moves of an instruction leave alone (10_state.md R32 to R38, R45) -/

/-- The control state that only named instructions write, and what no instruction writes. -/
def KeepsControl (i : Instr) (s t : State) : Prop :=
  (i ≠ .ldIA → t.i = s.i) ∧
  (i ≠ .ldRA → t.r = s.r) ∧
  (i ≠ .im0 → i ≠ .im1 → i ≠ .im2 → t.im = s.im) ∧
  (i ≠ .ei → i ≠ .di → t.iff2 = s.iff2 ∧ t.noSample = s.noSample) ∧
  (i ≠ .ei → i ≠ .di → i ≠ .retn → (i = .reti → s.params.retiCopiesIff2 = false) → t.iff1 = s.iff1) ∧
  (i ≠ .halt → t.halted = s.halted) ∧
  (i ≠ .exAfAf → i ≠ .exx → t.alt = s.alt) ∧
  t.nmiPending = s.nmiPending ∧ t.busGranted = s.busGranted ∧ t.memMap = s.memMap ∧ t.params = s.params ∧
  t.inputs = s.inputs ∧ t.tStates = s.tStates

namespace MayReach
variable {i : Instr} {s t : State}

theorem keepsControl (h : MayReach i s t) : KeepsControl i s t := by
  unfold KeepsControl
  induction h with
  | start => simp
  | read8 a _ ih => simpa using ih
  | write8 a v _ ih => simpa using ih
  | ioRead _ port _ ih => simpa using ih
  | ioWrite _ port v _ ih => simpa using ih
  | working k ix iy sp pc n _ _ ih => exact ih
  | setI named v _ ih => subst named; simpa using ih
  | setR named v _ ih => subst named; simpa using ih
  | setIm named m _ ih => rcases named with rfl | rfl | rfl <;> simpa using ih
  | setEnables on named _ ih => cases on <;> (subst named; simpa using ih)
  | copyIff2 named _ ih =>
    rcases named with rfl | ⟨rfl, hp⟩
    · simpa using ih
    · simpa [hp] using ih
  | halt named _ ih => subst named; simpa using ih
  | retiSeen _ _ ih => simpa using ih
  | setAlt named k _ ih => rcases named with rfl | rfl <;> simpa using ih

theorem params_eq (h : MayReach i s t) : t.params = s.params := by
  obtain ⟨_, _, _, _, _, _, _, _, _, _, hp, _, _⟩ := h.keepsControl
  exact hp

theorem iff2_eq (h : MayReach i s t) (he : i ≠ .ei) (hd : i ≠ .di) : t.iff2 = s.iff2 := by
  obtain ⟨_, _, _, h2, _⟩ := h.keepsControl
  exact (h2 he hd).1

/-- The flags are written only by the instructions that R45 lists. -/
theorem flags_eq (h : MayReach i s t) (hw : writesFlags i = false) : t.regs.f = s.regs.f := by
  induction h with
  | start => rfl
  | working k ix iy sp pc n hf _ ih =>
    rcases hf with hf | hf
    · rw [hw] at hf; cases hf
    · exact hf.trans ih
  | read8 a _ ih => simpa using ih
  | write8 a v _ ih => simpa using ih
  | ioRead _ port _ ih => simpa using ih
  | ioWrite _ port v _ ih => simpa using ih
  | retiSeen _ _ ih => exact ih
  | setI _ _ _ ih | setR _ _ _ ih | setIm _ _ _ ih | setEnables _ _ _ ih | copyIff2 _ _ ih | halt _ _ ih
  | setAlt _ _ _ ih => exact ih

/-- What may set IFF1 (R34). -/
theorem iff1_set (h : MayReach i s t) (h0 : s.iff1 = false) (h1 : t.iff1 = true) :
    i = .ei ∨ ((i = .retn ∨ (i = .reti ∧ s.params.retiCopiesIff2 = true)) ∧ s.iff2 = true) := by
  induction h with
  | start => rw [h0] at h1; cases h1
  | setEnables on named _ _ => cases h1; exact .inl named
  | copyIff2 named _ _ => exact .inr ⟨named, h1⟩
  | read8 a _ ih => exact ih (by simpa using h1)
  | write8 a v _ ih => exact ih (by simpa using h1)
  | ioRead _ port _ ih => exact ih (by simpa using h1)
  | ioWrite _ port v _ ih => exact ih (by simpa using h1)
  | working _ _ _ _ _ _ _ _ ih => exact ih h1
  | setI _ _ _ ih | setR _ _ _ ih | setIm _ _ _ ih | halt _ _ ih | retiSeen _ _ ih | setAlt _ _ _ ih => exact ih h1

/-! ### When no other bus master acts meanwhile (20_memory.md R75) -/

theorem cycleDma_eq (h : MayReach i s t) (hu : s.Undisturbed) : t.cycleDma = s.cycleDma := by
  induction h with
  | start => rfl
  | read8 a h ih => rw [State.afterRead8_eq (hu.congr h.params_eq ih)]; simpa using ih
  | write8 a v h ih => rw [State.write8_eq (hu.congr h.params_eq ih)]; exact ih
  | ioRead _ port h ih => rw [State.afterIoRead_eq (hu.congr h.params_eq ih)]; exact ih
  | ioWrite _ port v h ih => rw [State.ioWrite_eq (hu.congr h.params_eq ih)]; exact ih
  | working _ _ _ _ _ _ _ _ ih => exact ih
  | setI _ _ _ ih | setR _ _ _ ih | setIm _ _ _ ih | setEnables _ _ _ ih | copyIff2 _ _ ih | halt _ _ ih
  | retiSeen _ _ ih | setAlt _ _ _ ih => exact ih

theorem undisturbed (h : MayReach i s t) (hu : s.Undisturbed) : t.Undisturbed := hu.congr h.params_eq (h.cycleDma_eq hu)

theorem ioReplies_eq (h : MayReach i s t) (hu : s.Undisturbed) (hio : usesIoSpace i = false) :
    t.ioReplies = s.ioReplies := by
  induction h with
  | start => rfl
  | read8 a h ih => rw [State.afterRead8_eq (h.undisturbed hu)]; simpa using ih
  | write8 a v h ih => rw [State.write8_eq (h.undisturbed hu)]; exact ih
  | ioRead io | ioWrite io => rw [hio] at io; cases io
  | working _ _ _ _ _ _ _ _ ih => exact ih
  | setI _ _ _ ih | setR _ _ _ ih | setIm _ _ _ ih | setEnables _ _ _ ih | copyIff2 _ _ ih | halt _ _ ih
  | retiSeen _ _ ih | setAlt _ _ _ ih => exact ih

end MayReach

/-- Since s the bus has seen memory cycles of the CPU only. -/
def OnlyMemoryCycles (s t : State) : Prop :=
  ∃ l, t.busLog = l ++ s.busLog ∧ ∀ e ∈ l, ∃ a v, e = .memRead a v ∨ e = .memWrite a v

theorem OnlyMemoryCycles.cons {s t u : State} {e : BusEvent} (h : OnlyMemoryCycles s t)
    (he : ∃ a v, e = .memRead a v ∨ e = .memWrite a v) (hu : u.busLog = e :: t.busLog) : OnlyMemoryCycles s u := by
  obtain ⟨l, hl, hm⟩ := h
  refine ⟨e :: l, by rw [hu, hl]; rfl, fun x hx => ?_⟩
  rcases List.mem_cons.1 hx with rfl | hx
  · exact he
  · exact hm x hx

namespace MayReach
variable {i : Instr} {s t : State}

/-- Outside the I/O space, and RETI apart, an instruction reaches no device (R61, R73). -/
theorem no_device_reached (h : MayReach i s t) (hu : s.Undisturbed) (hio : usesIoSpace i = false) (hr : i ≠ .reti) :
    t.devices = s.devices ∧ OnlyMemoryCycles s t := by
  induction h with
  | start => exact ⟨rfl, [], rfl, nofun⟩
  | @read8 u a h ih =>
    rw [State.afterRead8_eq (h.undisturbed hu)]
    exact ⟨by simpa using ih.1, ih.2.cons ⟨a, u.read8 a, .inl rfl⟩ (by simp)⟩
  | write8 a v h ih =>
    rw [State.write8_eq (h.undisturbed hu)]
    exact ⟨ih.1, ih.2.cons ⟨a, v, .inr rfl⟩ rfl⟩
  | ioRead io | ioWrite io => rw [hio] at io; cases io
  | retiSeen named => exact absurd named hr
  | working _ _ _ _ _ _ _ _ ih => exact ih
  | setI _ _ _ ih | setR _ _ _ ih | setIm _ _ _ ih | setEnables _ _ _ ih | copyIff2 _ _ ih | halt _ _ ih
  | setAlt _ _ _ ih => exact ih

end MayReach

/-! ### The obligations -/

/-- Settles O18: of the moves open to an instruction that R45 does not list, none writes a flag. -/
theorem otherInstructionsKeepTheFlags : Obligations.OtherInstructionsKeepTheFlags :=
  fun _ _ _ hw h => (MayReach.of_exec h).flags_eq hw

/-- Settles O17, by the moves that are open to an instruction. -/
theorem onlyTheNamedInstructionsWriteControlState : Obligations.OnlyTheNamedInstructionsWriteControlState := by
  intro i s t h
  have hr : MayReach i s t := .of_exec h
  obtain ⟨hI, hR, hIm, hIff2, hIff1, hHalt, hAlt, hNmi, hBus, hMap, hPar, hIn, hT⟩ := hr.keepsControl
  exact ⟨hI, hR, hIm, hIff2, hIff1, hHalt, hAlt, hNmi, hBus, hMap, hPar, hIn, hT, fun hu =>
    ⟨hr.cycleDma_eq hu, fun hio => ⟨hr.ioReplies_eq hu hio, hr.no_device_reached hu hio⟩⟩⟩

/-- No boundary sets IFF1 (R34, R500): RESET and a latched NMI clear it, INT is accepted only while it is set. -/
theorem State.boundary_iff1 {s t : State} (h : s.boundary = .next t) (h1 : t.iff1 = true) : s.iff1 = true := by
  rcases State.boundary_cases h with ⟨_, rfl⟩ | ⟨_, _, rfl⟩ | ⟨_, _, hs⟩
  · cases h1
  · simpa using h1
  · rcases State.sampleInterrupts_cases hs with ⟨_, rfl⟩ | ⟨_, _, rfl⟩ | ⟨_, _, hi, _⟩ | ⟨_, _, _, rfl⟩
    · simpa using h1
    · unfold State.accepted at h1
      split at h1
      · cases h1
      · simp [State.acceptNmi] at h1
    · simpa using hi
    · simpa using h1

/-- Settles O16: by the moves that write IFF1, and by what a boundary does. -/
theorem iff1IsSetOnlyByEiAndRetn : Obligations.Iff1IsSetOnlyByEiAndRetn :=
  ⟨fun _ _ _ h => (MayReach.of_exec h).iff1_set, fun _ _ h => State.boundary_iff1 h⟩

end Sys2Proof.Machine

/-! ## The invariant: O19, O20 -/

namespace Sys2Proof.Machine

/-! ### The invariant without the sampling inhibition, which an instruction may break until its boundary (R37) -/

/-- What every move of the machine keeps of `StateOk`. -/
structure CoreOk (s : State) : Prop where
  memory : s.mem.wf = true
  enables : s.iff1 = true → s.iff2 = true
  devices : DevicesOk s.devices

theorem StateOk.core {s : State} (h : StateOk s) : CoreOk s := ⟨h.memory, h.enables, h.devices⟩

theorem CoreOk.stateOk {s : State} (h : CoreOk s) (shadow : s.noSample = true → s.busGranted = true) : StateOk s :=
  ⟨h.memory, h.enables, shadow, h.devices⟩

namespace CoreOk
variable {s : State}

/-! ### Bus cycles and the other bus master -/

theorem dma (l : List DmaAccess) (h : CoreOk s) : CoreOk (s.dma l) :=
  ⟨State.dma_wf l s h.memory, by simpa using h.enables, h.devices.dma l⟩

theorem endCycle (h : CoreOk s) : CoreOk s.endCycle :=
  ⟨State.endCycle_wf s h.memory, by simpa using h.enables, h.devices.endCycle⟩

theorem answerMem (a : Word) (h : CoreOk s) : CoreOk (s.answerMem a) :=
  ⟨by simpa using h.memory, by simpa using h.enables, by simpa using h.devices⟩

theorem logged (e : BusEvent) (h : CoreOk s) : CoreOk (s.logged e) := ⟨h.memory, h.enables, h.devices⟩

theorem m1Cycle (h : CoreOk s) : CoreOk s.m1Cycle := ⟨h.memory, h.enables, h.devices.map Device.ok_m1⟩

theorem afterRead8 (a : Word) (h : CoreOk s) : CoreOk (s.afterRead8 a) := ((h.answerMem a).logged _).endCycle

theorem afterRead16 (a : Word) (h : CoreOk s) : CoreOk (s.afterRead16 a) := (h.afterRead8 a).afterRead8 _

theorem write8 (a : Word) (v : Byte) (h : CoreOk s) : CoreOk (s.write8 a v) :=
  ⟨State.write8_wf s a v h.memory, by simpa using h.enables,
    DevicesOk.endCycle (s := (s.storeMem a v).logged (.memWrite a v)) h.devices⟩

theorem afterFetch (h : CoreOk s) : CoreOk s.afterFetch := ((h.answerMem _).m1Cycle.logged _).endCycle

theorem answerIo (port : Word) (h : CoreOk s) : CoreOk (s.answerIo port) :=
  ⟨h.memory, h.enables, h.devices.ioReply port⟩

theorem afterIoRead (port : Word) (h : CoreOk s) : CoreOk (s.afterIoRead port) := ((h.answerIo port).logged _).endCycle

theorem ioWrite (port : Word) (v : Byte) (h : CoreOk s) : CoreOk (s.ioWrite port v) :=
  have stored : CoreOk (s.storeIo port v) := ⟨h.memory, h.enables, h.devices.map (Device.ok_write _ v)⟩
  (stored.logged _).endCycle

theorem answerAck (h : CoreOk s) : CoreOk s.answerAck := by
  refine ⟨h.memory, h.enables, ?_⟩
  unfold State.answerAck
  dsimp only
  split
  · exact h.devices.setChainSlot _ false true
  · exact h.devices

theorem afterIntAck (b : Byte) (h : CoreOk s) : CoreOk (s.afterIntAck b) := (h.answerAck.m1Cycle.logged _).endCycle

theorem retiSeen (h : CoreOk s) : CoreOk s.retiSeen := by
  refine ⟨h.memory, h.enables, ?_⟩
  unfold State.retiSeen
  dsimp only
  split
  · exact h.devices.releaseSlot _
  · exact h.devices

theorem elapse (n : Nat) (h : CoreOk s) : CoreOk (s.elapse n) :=
  ⟨h.memory, h.enables, h.devices.map (Device.ok_clock n)⟩

theorem push16 (v : Word) (h : CoreOk s) : CoreOk (s.push16 v) :=
  have w := (h.write8 (s.sp - 1#16) (highByte v)).write8 (s.sp - 2#16) (lowByte v)
  ⟨w.memory, w.enables, w.devices⟩

theorem callTo (target : Word) (h : CoreOk s) : CoreOk (s.callTo target) :=
  have w := h.push16 s.pc
  ⟨w.memory, w.enables, w.devices⟩

theorem callVector (v : Byte) (h : CoreOk s) : CoreOk (s.callVector v) :=
  have w := (h.push16 s.pc).afterRead16 (s.i ++ v)
  ⟨w.memory, w.enables, w.devices⟩

/-! ### Instructions and their fetch -/

theorem fetch (h : CoreOk s) : CoreOk s.fetch.2 := by
  refine State.fetchFrom_keeps (P := CoreOk) (fun u opcode hu => ?_) 4 [] s h
  cases opcode with
  | true => exact ⟨hu.afterFetch.memory, hu.afterFetch.enables, hu.afterFetch.devices⟩
  | false => exact ⟨(hu.afterRead8 u.pc).memory, (hu.afterRead8 u.pc).enables, (hu.afterRead8 u.pc).devices⟩

/-- Every move open to an instruction keeps the invariant. RETN and RETI copy an IFF2 that they have not changed. -/
theorem mayReach {i : Instr} {t : State} (h : CoreOk s) (hr : MayReach i s t) : CoreOk t := by
  induction hr with
  | start => exact h
  | read8 a _ ih => exact ih.afterRead8 a
  | write8 a v _ ih => exact ih.write8 a v
  | ioRead _ port _ ih => exact ih.afterIoRead port
  | ioWrite _ port v _ ih => exact ih.ioWrite port v
  | setEnables on _ _ ih => exact ⟨ih.memory, id, ih.devices⟩
  | @copyIff2 u named hu ih =>
    have kept : u.iff2 = s.iff2 := by
      refine hu.iff2_eq ?_ ?_ <;> rcases named with rfl | ⟨rfl, _⟩ <;> nofun
    exact ⟨ih.memory, fun h2 => kept.trans h2, ih.devices⟩
  | retiSeen _ _ ih => exact ih.retiSeen
  | working _ _ _ _ _ _ _ _ ih => exact ⟨ih.memory, ih.enables, ih.devices⟩
  | setI _ _ _ ih | setR _ _ _ ih | setIm _ _ _ ih | halt _ _ ih | setAlt _ _ _ ih =>
    exact ⟨ih.memory, ih.enables, ih.devices⟩

theorem exec {i : Instr} {t : State} (h : CoreOk s) (he : Machine.exec i s = .next t) : CoreOk t :=
  h.mayReach (.of_exec he)

/-! ### RESET and the interrupts -/

theorem arrive (b : BoundaryInput) (h : CoreOk s) : CoreOk (s.arrive b) :=
  ⟨by simpa using h.memory, by simpa using h.enables, (h.elapse b.waitStates).devices.deviceEvents b.events⟩

theorem hardReset (h : CoreOk s) : CoreOk s.hardReset := ⟨h.memory, nofun, h.devices.resetDevices _⟩

/-- An abandoned instruction leaves a canonical mixture of the old and the new memory, and devices as they were before
or after it (R570). -/
theorem abandoned {u : State} (h : CoreOk s) (hu : CoreOk u) : CoreOk (s.abandoned u) := by
  refine ⟨(State.abandoned_memory h.memory hu.memory).1, hu.enables, ?_⟩
  unfold State.abandoned
  dsimp only
  split
  · exact hu.devices
  · exact h.devices

theorem cutShort {u : State} (h : CoreOk s) (hu : CoreOk u) : CoreOk (s.cutShort u) := by
  rcases State.cutShort_cases s u with e | ⟨_, _, e⟩
  · rwa [e]
  · rw [e]
    exact h.abandoned hu

theorem accepted {u : State} (b : BoundaryInput) (h : CoreOk s) (hu : CoreOk u) : CoreOk (s.accepted b u) := by
  unfold State.accepted
  split
  · exact (h.abandoned hu).hardReset.elapse resetCost
  · exact hu

theorem enterInterrupt (k : InterruptKind) (b : Byte) (h : CoreOk s) : CoreOk (s.enterInterrupt k b) := by
  cases k with
  | nonMaskable =>
    exact afterFetch (s := { s with halted := false, iff1 := false, nmiPending := false }) ⟨h.memory, nofun, h.devices⟩
  | maskable =>
    exact afterIntAck (s := { s with halted := false, iff1 := false, iff2 := false }) b ⟨h.memory, nofun, h.devices⟩

theorem acceptNmi (h : CoreOk s) : CoreOk s.acceptNmi := ((h.enterInterrupt _ _).callTo _).elapse _

theorem acceptInt {b : Byte} {t : State} (h : CoreOk s) (ht : s.acceptInt b = .next t) : CoreOk t := by
  have entered := h.enterInterrupt .maskable b
  rcases State.acceptInt_cases ht with ⟨_, h0⟩ | ⟨_, rfl⟩ | ⟨_, rfl⟩
  · rcases State.respondMode0_cases h0 with ⟨_, rfl⟩ | ⟨_, _, i, _, u, _, hu, rfl⟩
    · exact (entered.callTo _).elapse _
    · have done := entered.exec hu
      exact elapse (s := { u with noSample := false }) _ ⟨done.memory, done.enables, done.devices⟩
  · exact (entered.callTo _).elapse _
  · exact (entered.callVector _).elapse _

/-! ### The boundary and the step -/

theorem sampleInterrupts {b : BoundaryInput} {t : State} (h : CoreOk s) (ht : s.sampleInterrupts b = .next t) :
    CoreOk t := by
  rcases State.sampleInterrupts_cases ht with ⟨_, rfl⟩ | ⟨_, _, rfl⟩ | ⟨_, _, _, _, u, hu, rfl⟩ | ⟨_, _, _, rfl⟩
  · exact ⟨h.memory, h.enables, h.devices⟩
  · exact h.accepted b h.acceptNmi
  · exact h.accepted b (h.acceptInt hu)
  · exact h

theorem boundary {t : State} (h : CoreOk s) (ht : s.boundary = .next t) : CoreOk t := by
  have arrived := h.arrive s.nextInput
  rcases State.boundary_cases ht with ⟨_, rfl⟩ | ⟨_, _, rfl⟩ | ⟨_, _, hs⟩
  · exact arrived.hardReset.elapse resetCost
  · exact dma (s := { s.arrive s.nextInput with busGranted := true }) _
      ⟨arrived.memory, arrived.enables, arrived.devices⟩
  · exact sampleInterrupts (s := { s.arrive s.nextInput with busGranted := false })
      ⟨arrived.memory, arrived.enables, arrived.devices⟩ hs

end CoreOk

/-! ### The sampling inhibition ends at its boundary, unless the bus is granted there (R37, R590, log 12) -/

/-- A response leaves nothing inhibited: in mode 0 even an EI or DI that it executes does not (R513, log 8). -/
theorem State.acceptInt_noSample {s t : State} {b : Byte} (h : s.acceptInt b = .next t) (hn : s.noSample = false) :
    t.noSample = false := by
  rcases State.acceptInt_cases h with ⟨_, h0⟩ | ⟨_, rfl⟩ | ⟨_, rfl⟩
  · rcases State.respondMode0_cases h0 with ⟨_, rfl⟩ | ⟨_, _, _, _, _, _, _, rfl⟩
    · simpa using hn
    · rfl
  · simpa using hn
  · simpa using hn

theorem State.accepted_noSample {s u : State} (b : BoundaryInput) (hu : u.noSample = false) :
    (s.accepted b u).noSample = false := by
  unfold State.accepted
  split
  · rfl
  · exact hu

theorem State.sampleInterrupts_noSample {s t : State} {b : BoundaryInput} (h : s.sampleInterrupts b = .next t) :
    t.noSample = false := by
  rcases State.sampleInterrupts_cases h with ⟨_, rfl⟩ | ⟨hn, _, rfl⟩ | ⟨hn, _, _, _, u, hu, rfl⟩ | ⟨hn, _, _, rfl⟩
  · rfl
  · exact State.accepted_noSample b (by simpa [State.acceptNmi] using hn)
  · exact State.accepted_noSample b (State.acceptInt_noSample hu hn)
  · exact hn

theorem State.boundary_shadow {s t : State} (h : s.boundary = .next t) (hn : t.noSample = true) :
    t.busGranted = true := by
  rcases State.boundary_cases h with ⟨_, rfl⟩ | ⟨_, _, rfl⟩ | ⟨_, _, hs⟩
  · cases hn
  · simp
  · rw [State.sampleInterrupts_noSample hs] at hn
    cases hn

theorem CoreOk.stateOk_boundary {s t : State} (h : CoreOk s) (ht : s.boundary = .next t) : StateOk t :=
  (h.boundary ht).stateOk (State.boundary_shadow ht)

/-! ### The obligations -/

/-- Settles O19: a step is a fetch and an instruction, or the Halt state's NOP, or neither, and then a boundary; each
keeps `CoreOk`, and the boundary restores the rest. -/
theorem everyStepKeepsStateOk : Obligations.EveryStepKeepsStateOk := by
  intro s t hs ht
  have h := hs.core
  rcases step_cases ht with ⟨_, hb⟩ | ⟨_, _, hb⟩ | ⟨_, _, i, u, v, hf, hv, hb⟩
  · exact h.stateOk_boundary hb
  · exact (h.afterFetch.elapse haltCost).stateOk_boundary hb
  · have fetched : CoreOk u := by simpa [hf] using h.fetch
    exact ((fetched.cutShort (fetched.exec hv)).elapse _).stateOk_boundary hb

/-- Settles O20: memory and the devices are empty, IFF1 and the inhibition off. -/
theorem resetIsOk : Obligations.ResetIsOk := by
  refine ⟨rfl, ?_, ?_, ?_⟩ <;> simp [State.reset]

end Sys2Proof.Machine

/-! ## Registers, PUSH and POP: O13, O26, O34, O35, O36 -/

namespace Sys2Proof.Machine

/-! ### The register file (R21, R23) -/

theorem Bank.get_set (k : Bank) (r r' : Reg8) (v : Byte) : (k.set r v).get r' = if r' = r then v else k.get r' := by
  cases r <;> cases r' <;> rfl

theorem Bank.set_f (k : Bank) (r : Reg8) (v : Byte) : (k.set r v).f = k.f := by
  cases r <;> rfl

/-- A pair as a number: its first register is the high byte. -/
theorem toNat_append_byte (a b : Byte) : (a ++ b : Word).toNat = 256 * a.toNat + b.toNat := by
  rw [BitVec.toNat_append, ← Nat.shiftLeft_add_eq_or_of_lt b.isLt, Nat.shiftLeft_eq, Nat.mul_comm]

/-- Settles O13: each value is the one `State.reset` is written with. -/
theorem stateAfterReset : Obligations.StateAfterReset := ⟨rfl, rfl, rfl, rfl, rfl, rfl, rfl, rfl, rfl⟩

/-- Settles O26, by `Bank.get_set` and the pairs' halves. -/
theorem registerFile : Obligations.RegisterFile :=
  ⟨fun s r r' v => ⟨s.regs.get_set r r' v, rfl, s.regs.set_f r v⟩,
    fun _ => ⟨rfl, rfl, rfl, rfl, rfl, rfl, rfl⟩,
    fun _ => ⟨toNat_append_byte _ _, toNat_append_byte _ _, toNat_append_byte _ _⟩,
    fun s v => ⟨⟨s.bc_setBc v, rfl⟩, ⟨s.de_setDe v, rfl⟩, ⟨s.hl_setHl v, rfl⟩⟩⟩

/-! ### F as a byte on the stack (R24, R26) -/

/-- What PUSH AF stores of F, POP AF reads back, whatever bits 5 and 3 were. -/
@[simp] theorem flagsOfByte_toByte (f : Flags) (bit5 bit3 : Bool) : flagsOfByte (f.toByte bit5 bit3) = f := by
  obtain ⟨s, z, h, pv, n, c⟩ := f
  revert s z h pv n c bit5 bit3
  decide

/-! ### PUSH and POP (R30, R175 to R180) -/

theorem exec_pushPair (q : PairQ) (s : State) : exec (.pushPair q) s = .next (s.pushQ q) := rfl

theorem exec_popPair (q : PairQ) (s : State) : exec (.popPair q) s = .next (s.popQ q) := rfl

/-- The word a pop delivers, by its two reads. -/
theorem State.top16_eq (s : State) : s.top16 = (s.afterRead8 s.sp).read8 (s.sp + 1#16) ++ s.read8 s.sp := rfl

/-- What a pop leaves, by its two reads. -/
theorem State.drop16_eq (s : State) :
    s.drop16 = { (s.afterRead8 s.sp).afterRead8 (s.sp + 1#16) with sp := s.sp + 2#16 } := rfl

/-- Settles O35: a pop is its two reads, then the registers take the halves. -/
theorem pops : Obligations.Pops := by
  intro s
  refine ⟨?_, ?_, ?_, ?_, rfl, rfl⟩
  · simp [exec_popPair, State.popQ, State.setBc, State.top16_eq, State.drop16_eq]
  · simp [exec_popPair, State.popQ, State.setDe, State.top16_eq, State.drop16_eq]
  · simp [exec_popPair, State.popQ, State.setHl, State.top16_eq, State.drop16_eq]
  · simp [exec_popPair, State.popQ, State.setAF, State.top16_eq, State.drop16_eq, flagsOfByte]

/-- A push of two bytes, the high one first (R66). -/
theorem State.push16_append_took {s : State} (hu : s.Undisturbed) (hi lo : Byte) (h : s.mem.wf = true) :
    TookTwo { s with sp := s.sp - 2#16 } (s.push16 (hi ++ lo)) (s.sp - 1#16) hi (s.sp - 2#16) lo := by
  simpa using State.push16_took hu (hi ++ lo) h

/-- Settles O34. The byte of F that PUSH AF stores has two drawn bits. -/
theorem pushes : Obligations.Pushes := by
  intro s hm hu
  have drawn : (s.drew 2).Undisturbed := hu
  let f := s.regs.f.toByte (Config.freeBit s.draws) (Config.freeBit (s.draws + 1))
  have hf : flagsOfByte f = s.regs.f := flagsOfByte_toByte _ _ _
  exact ⟨⟨_, exec_pushPair .bc s, State.push16_append_took hu _ _ hm⟩,
    ⟨_, exec_pushPair .de s, State.push16_append_took hu _ _ hm⟩,
    ⟨_, exec_pushPair .hl s, State.push16_append_took hu _ _ hm⟩,
    ⟨f, ⟨_, exec_pushPair .af s, State.push16_append_took drawn _ _ hm⟩, congrArg Flags.s hf, congrArg Flags.z hf,
      congrArg Flags.h hf, congrArg Flags.pv hf, congrArg Flags.n hf, congrArg Flags.c hf⟩,
    ⟨_, rfl, State.push16_took hu _ hm⟩, ⟨_, rfl, State.push16_took hu _ hm⟩⟩

/-! ### PUSH, then POP -/

section PushPop
variable {s : State}

/-- A word read from RAM or ROM, when no other bus master acts meanwhile. -/
theorem State.read16_plain (hu : s.Undisturbed) {a : Word} (h0 : s.isPlain a) (h1 : s.isPlain (a + 1#16)) :
    s.read16 a = s.byteAt (a + 1#16) ++ s.byteAt a := by
  unfold State.read16
  rw [State.afterRead8_eq hu, State.answerMem_plain h0, State.read8_plain h0]
  exact congrArg (· ++ _) (State.read8_plain (s := s.logged _) h1)

/-- A word pushed into RAM is on top of the stack. -/
theorem State.top16_push16 (hm : s.mem.wf = true) (hu : s.Undisturbed) (h1 : kindAt s.memMap (s.sp - 1#16) = none)
    (h2 : kindAt s.memMap (s.sp - 2#16) = none) (v : Word) : (s.push16 v).top16 = v := by
  obtain ⟨heq, _, hbytes⟩ := State.push16_took hu v hm
  have hnext : s.sp - 2#16 + 1#16 = s.sp - 1#16 := by bv_omega
  have hne : s.sp - 2#16 ≠ s.sp - 1#16 := by bv_omega
  have hu' : (s.push16 v).Undisturbed := by
    rw [heq]
    exact hu
  have low : (s.push16 v).byteAt (s.sp - 2#16) = lowByte v := by rw [hbytes]; simp [hne, h2]
  have high : (s.push16 v).byteAt (s.sp - 1#16) = highByte v := by rw [hbytes]; simp [h1]
  unfold State.top16
  rw [State.push16_sp, State.read16_plain hu' (.inl (by simpa using h2)) (.inl (by simpa [hnext] using h1)), hnext, low,
    high, highByte_append_lowByte]

/-- A pop behind a push puts SP back. -/
theorem State.drop16_push16_sp (v : Word) : (s.push16 v).drop16.sp = s.sp := by
  simp

/-- POP behind PUSH gives the pair and SP back: BC, DE and HL as one word, A and F by way of F's byte. -/
theorem State.popQ_pushQ (hm : s.mem.wf = true) (hu : s.Undisturbed) (h1 : kindAt s.memMap (s.sp - 1#16) = none)
    (h2 : kindAt s.memMap (s.sp - 2#16) = none) (q : PairQ) :
    ((s.pushQ q).popQ q).regs = s.regs ∧ ((s.pushQ q).popQ q).sp = s.sp := by
  cases q with
  | bc => simp [State.pushQ, State.popQ, State.top16_push16 hm hu h1 h2, State.bc]
  | de => simp [State.pushQ, State.popQ, State.top16_push16 hm hu h1 h2, State.de]
  | hl => simp [State.pushQ, State.popQ, State.top16_push16 hm hu h1 h2, State.hl]
  | af => simp [State.pushQ, State.popQ, State.top16_push16 (s := s.drew 2) hm hu h1 h2]

end PushPop

/-- Settles O36: the word pushed is the word on top, and SP is back. -/
theorem pushThenPopRestores : Obligations.PushThenPopRestores := by
  intro s hm hu h1 h2
  refine ⟨fun q => ⟨_, _, exec_pushPair q s, exec_popPair q _, ?_⟩, ⟨_, _, rfl, rfl, ?_⟩, ⟨_, _, rfl, rfl, ?_⟩⟩
  · obtain ⟨hregs, hsp⟩ := State.popQ_pushQ hm hu h1 h2 q
    exact ⟨hregs, hsp, by simp, by simp⟩
  · exact ⟨State.top16_push16 hm hu h1 h2 s.ix, State.drop16_push16_sp s.ix, by simp⟩
  · exact ⟨State.top16_push16 hm hu h1 h2 s.iy, State.drop16_push16_sp s.iy, by simp⟩

end Sys2Proof.Machine

/-! ## The boundary behind an instruction, and RESET: O10, O12 -/

namespace Sys2Proof.Machine

/-! ### What a fetch leaves alone -/

theorem State.fetch_induct {P : State → Prop} (hP : ∀ s o, P s → P (s.fetchByte o)) {s u : State}
    {r : Except DecodeError Instr} (h : s.fetch = (r, u)) (hs : P s) : P u := by
  have kept := State.fetchFrom_keeps hP 4 [] s hs
  rwa [show s.fetchFrom 4 [] = (r, u) from h] at kept

theorem State.fetch_keeps {α : Type} {f : State → α} (hf : ∀ s o, f (s.fetchByte o) = f s) {s u : State}
    {r : Except DecodeError Instr} (h : s.fetch = (r, u)) : f u = f s :=
  State.fetch_induct (P := fun t => f t = f s) (fun t o ht => (hf t o).trans ht) h rfl

section Fetched
variable {s u : State} {r : Except DecodeError Instr} (h : s.fetch = (r, u))
include h

theorem State.fetch_sp : u.sp = s.sp := State.fetch_keeps State.fetchByte_sp h

theorem State.fetch_memMap : u.memMap = s.memMap := State.fetch_keeps State.fetchByte_memMap h

theorem State.fetch_halted : u.halted = s.halted := State.fetch_keeps State.fetchByte_halted h

theorem State.fetch_nmiPending : u.nmiPending = s.nmiPending := State.fetch_keeps State.fetchByte_nmiPending h

/-- The record of the coming boundary stays queued. -/
theorem State.fetch_nextInput : u.nextInput = s.nextInput := by
  have same : u.inputs = s.inputs := State.fetch_keeps State.fetchByte_inputs h
  unfold State.nextInput
  rw [same]

theorem State.fetch_wf (hm : s.mem.wf = true) : u.mem.wf = true := State.fetch_induct State.fetchByte_wf h hm

end Fetched

/-! ### A step that fetches -/

theorem step_of_fetch {s u v : State} {i : Instr} (hb : s.busGranted = false) (hh : s.halted = false)
    (hf : s.fetch = (.ok i, u)) (he : exec i u = .next v) :
    step s = ((u.cutShort v).elapse (instrCost i u)).boundary := by
  simp [step, stepInstruction, boundaryAfter, hb, hh, hf, he]

theorem exec_inputs {i : Instr} {s t : State} (h : exec i s = .next t) : t.inputs = s.inputs := by
  obtain ⟨_, _, _, _, _, _, _, _, _, _, _, hin, _⟩ := (MayReach.of_exec h).keepsControl
  exact hin

theorem exec_memMap {i : Instr} {s t : State} (h : exec i s = .next t) : t.memMap = s.memMap := by
  obtain ⟨_, _, _, _, _, _, _, _, _, hmap, _⟩ := (MayReach.of_exec h).keepsControl
  exact hmap

theorem State.nextInput_congr {s t : State} (h : t.inputs = s.inputs) : t.nextInput = s.nextInput := by
  unfold State.nextInput
  rw [h]

/-! ### No interrupt behind EI and DI (R37, R590) -/

/-- EI and DI set both enables alike and inhibit the next sampling. -/
theorem exec_ei_or_di {i : Instr} (hi : i = .ei ∨ i = .di) (s : State) :
    exec i s = .next { s with iff1 := decide (i = .ei), iff2 := decide (i = .ei), noSample := true } := by
  rcases hi with rfl | rfl <;> rfl

/-- A boundary without RESET and bus request, where the sampling is inhibited, only ends the inhibition. -/
theorem State.boundary_inhibited {s : State} (hr : s.nextInput.reset = false) (hb : s.nextInput.busreq = false)
    (hn : s.noSample = true) :
    s.boundary = .next { s.arrive s.nextInput with busGranted := false, noSample := false } := by
  rw [State.boundary_eq_sample hr hb, State.sampleInterrupts_none (.inl (by simpa using hn))]

/-- Settles O10: the boundary behind EI and DI is an inhibited one. -/
theorem noInterruptAfterEiOrDi : Obligations.NoInterruptAfterEiOrDi := by
  intro s u i hi hb hh hf hr hq
  have hin : u.nextInput = s.nextInput := State.fetch_nextInput hf
  rw [← hin] at hr hq ⊢
  rw [step_of_fetch hb hh hf (exec_ei_or_di hi u), State.cutShort_eq _ (by simp [hr])]
  refine ⟨_, State.boundary_inhibited hr hq rfl, ?_⟩
  refine ⟨by simp, by simp [State.fetch_sp hf], by simp, by simp, by simp [State.fetch_halted hf, hh], by simp, by simp,
    rfl, ?_⟩
  rw [← State.fetch_nmiPending hf]
  exact State.arrive_nmiPending _ _

/-! ### RESET (R46, R488, R570) -/

theorem State.wasReset_hardReset (s : State) (n : Nat) : WasReset (s.hardReset.elapse n) :=
  ⟨rfl, rfl, rfl, rfl, rfl, rfl, rfl, rfl, rfl, rfl⟩

theorem State.boundary_reset {s : State} (h : s.nextInput.reset = true) :
    s.boundary = .next ((s.arrive s.nextInput).hardReset.elapse resetCost) := by
  simp [State.boundary, State.decideBoundary, h]

theorem MayReach.wf {i : Instr} {s t : State} (h : MayReach i s t) (hm : s.mem.wf = true) : t.mem.wf = true := by
  induction h with
  | start => exact hm
  | read8 a _ ih => exact State.afterRead8_wf _ a ih
  | write8 a v _ ih => exact State.write8_wf _ a v ih
  | ioRead _ port _ ih => exact State.afterIoRead_wf _ port ih
  | ioWrite _ port v _ ih => exact State.ioWrite_wf _ port v ih
  | working _ _ _ _ _ _ _ _ ih => exact ih
  | setI _ _ _ ih | setR _ _ _ ih | setIm _ _ _ ih | setEnables _ _ _ ih | copyIff2 _ _ ih | halt _ _ ih
  | retiSeen _ _ ih | setAlt _ _ _ ih => exact ih

theorem State.acceptNmi_wf {s : State} (h : s.mem.wf = true) : s.acceptNmi.mem.wf = true :=
  State.callTo_wf _ nmiEntry (State.enterInterrupt_wf s .nonMaskable 0#8 h)

theorem State.acceptNmi_memMap (s : State) : s.acceptNmi.memMap = s.memMap := by
  simp [State.acceptNmi]

theorem State.acceptInt_wf {s t : State} {b : Byte} (ht : s.acceptInt b = .next t) (h : s.mem.wf = true) :
    t.mem.wf = true := by
  have entered := State.enterInterrupt_wf s .maskable b h
  rcases State.acceptInt_cases ht with ⟨_, h0⟩ | ⟨_, rfl⟩ | ⟨_, rfl⟩
  · rcases State.respondMode0_cases h0 with ⟨_, rfl⟩ | ⟨_, _, i, _, u, _, hu, rfl⟩
    · exact State.callTo_wf _ (mode0Entry (s.ackByte b)) entered
    · exact (MayReach.of_exec hu).wf entered
  · exact State.callTo_wf _ mode1Entry entered
  · exact State.callVector_wf _ _ entered

theorem State.acceptInt_memMap {s t : State} {b : Byte} (ht : s.acceptInt b = .next t) : t.memMap = s.memMap := by
  rcases State.acceptInt_cases ht with ⟨_, h0⟩ | ⟨_, rfl⟩ | ⟨_, rfl⟩
  · rcases State.respondMode0_cases h0 with ⟨_, rfl⟩ | ⟨_, _, i, _, u, _, hu, rfl⟩
    · simp
    · simpa using exec_memMap hu
  · simp
  · simp

/-- Where the response is abandoned, RESET follows (log 13). -/
theorem State.accepted_reset {s : State} {b : BoundaryInput} (u : State) (h : b.resetsResponse = true) :
    s.accepted b u = (s.abandoned u).hardReset.elapse resetCost := by
  simp [State.accepted, h]

/-- Settles O12: at a boundary RESET acts at once; an abandoned instruction or response leaves a mixture of the two
memories, and RESET follows. -/
theorem resetActsAtAnyTime : Obligations.ResetActsAtAnyTime := by
  refine ⟨fun s hr => ?boundary, fun s u v i hm hb hh hf hr ha he => ?instruction,
    fun s v hm hr hq hn hrr => ?response⟩
  case boundary => exact ⟨_, State.boundary_reset hr, State.wasReset_hardReset _ _, by simp, by simp, by simp⟩
  case instruction =>
    have hin : u.nextInput = s.nextInput := State.fetch_nextInput hf
    have hu := State.fetch_wf hf hm
    obtain ⟨hwf, hbytes⟩ := State.abandoned_memory hu ((MayReach.of_exec he).wf hu)
    have cut : u.cutShort v = u.abandoned v := by simp [State.cutShort, hin, hr, ha]
    have next : ((u.abandoned v).elapse (instrCost i u)).nextInput = s.nextInput :=
      (State.nextInput_congr (exec_inputs he)).trans hin
    rw [step_of_fetch hb hh hf he, cut, State.boundary_reset (by rw [next]; exact hr)]
    refine ⟨_, rfl, State.wasReset_hardReset _ _, ?_, ?_, fun a => ?_⟩
    · simpa using (exec_memMap he).trans (State.fetch_memMap hf)
    · simpa using hwf
    · simpa [State.byteAt] using hbytes a.toNat
  case response =>
    intro u hcases
    have hu : u.mem.wf = true := by simpa [u, State.atBoundary] using hm
    have accept : s.boundary = .next (u.accepted s.nextInput v) ∧ v.mem.wf = true ∧ v.memMap = u.memMap := by
      rw [State.boundary_eq_sample hr hq]
      change u.sampleInterrupts s.nextInput = _ ∧ _
      have hnu : u.noSample = false := by simpa [u, State.atBoundary] using hn
      rcases hcases with ⟨hp, rfl⟩ | ⟨hp, hi, hact, hv⟩
      · exact ⟨State.sampleInterrupts_nmi hnu hp, State.acceptNmi_wf hu, State.acceptNmi_memMap u⟩
      · exact ⟨by simp [State.sampleInterrupts, hnu, hp, hi, hact, hv], State.acceptInt_wf hv hu,
          State.acceptInt_memMap hv⟩
    obtain ⟨hbound, hvwf, hmap⟩ := accept
    obtain ⟨hwf, hbytes⟩ := State.abandoned_memory hu hvwf
    rw [hbound, State.accepted_reset v hrr]
    refine ⟨_, rfl, State.wasReset_hardReset _ _, ?_, ?_, fun a => ?_⟩
    · simpa [u, State.atBoundary] using hmap
    · simpa using hwf
    · simpa [State.byteAt, u, State.atBoundary] using hbytes a.toNat

end Sys2Proof.Machine

/-! ## The decoder answers on whole instructions and on nothing less (30_encoding.md R93) -/

namespace Sys2Proof

/-! ### A decoder that has an answer does not look at the bytes behind -/

/-- A decoder's answer, with the bytes u behind those it was given. -/
def withTail (u : List Byte) (r : Decoded) : Decoded :=
  match r with
  | .ok (i, t) => .ok (i, t ++ u)
  | .error e => .error e

/-- More bytes behind change nothing, unless more were asked for. -/
def Prompt (f : List Byte → Decoded) : Prop := ∀ t u, f t ≠ .error .truncated → f (t ++ u) = withTail u (f t)

theorem prompt_plain (i : Instr) : Prompt (plain i) := fun _ _ _ => rfl

theorem prompt_error (e : DecodeError) : Prompt fun _ => .error e := fun _ _ _ => rfl

theorem prompt_withByte (k : Byte → Instr) : Prompt fun t => withByte t k := by
  intro t u h
  match t with
  | [] => exact absurd rfl h
  | _ :: _ => rfl

theorem prompt_withTwoBytes (k : Byte → Byte → Instr) : Prompt fun t => withTwoBytes t k := by
  intro t u h
  match t with
  | [] | [_] => exact absurd rfl h
  | _ :: _ :: _ => rfl

theorem prompt_withWord (k : Word → Instr) : Prompt fun t => withWord t k := by
  intro t u h
  match t with
  | [] | [_] => exact absurd rfl h
  | _ :: _ :: _ => rfl

theorem prompt_afterPrefix {page : Byte → List Byte → Decoded} (h : ∀ op, Prompt (page op)) :
    Prompt fun t => afterPrefix t page := by
  intro t u ht
  match t with
  | [] => exact absurd rfl ht
  | op :: t' => exact h op t' u ht

/-! Each page chooses by the opcode byte alone; what it chooses is one of the above. -/

theorem prompt_decodeCb (op : Byte) : Prompt (decodeCb op) := by
  intro t u
  unfold decodeCb
  dsimp only
  repeat' split
  all_goals first | exact prompt_plain _ t u | exact prompt_error _ t u

theorem prompt_decodeEd (op : Byte) : Prompt (decodeEd op) := by
  intro t u
  unfold decodeEd
  dsimp only
  repeat' split
  all_goals first | exact prompt_plain _ t u | exact prompt_withWord _ t u | exact prompt_error _ t u

theorem prompt_decodeDdCb : Prompt decodeDdCb := by
  intro t u
  match t with
  | [] | [_] => exact fun h => absurd rfl h
  | d :: op :: t =>
    unfold decodeDdCb
    dsimp only [List.cons_append]
    repeat' split
    all_goals first | exact prompt_plain _ t u | exact prompt_error _ t u

theorem prompt_decodeFdCb : Prompt decodeFdCb := by
  intro t u
  match t with
  | [] | [_] => exact fun h => absurd rfl h
  | d :: op :: t =>
    unfold decodeFdCb
    dsimp only [List.cons_append]
    repeat' split
    all_goals first | exact prompt_plain _ t u | exact prompt_error _ t u

theorem prompt_decodeDd (op : Byte) : Prompt (decodeDd op) := by
  intro t u
  unfold decodeDd
  dsimp only
  repeat' split
  all_goals first
    | exact prompt_plain _ t u | exact prompt_withByte _ t u | exact prompt_withWord _ t u
    | exact prompt_withTwoBytes _ t u | exact prompt_decodeDdCb t u | exact prompt_error _ t u

theorem prompt_decodeFd (op : Byte) : Prompt (decodeFd op) := by
  intro t u
  unfold decodeFd
  dsimp only
  repeat' split
  all_goals first
    | exact prompt_plain _ t u | exact prompt_withByte _ t u | exact prompt_withWord _ t u
    | exact prompt_withTwoBytes _ t u | exact prompt_decodeFdCb t u | exact prompt_error _ t u

theorem prompt_decodeQuadrant0 (y z : BitVec 3) : Prompt (decodeQuadrant0 y z) := by
  intro t u
  unfold decodeQuadrant0
  dsimp only
  repeat' split
  all_goals first | exact prompt_plain _ t u | exact prompt_withByte _ t u | exact prompt_withWord _ t u

theorem prompt_decodeQuadrant1 (y z : BitVec 3) : Prompt (decodeQuadrant1 y z) := by
  intro t u
  unfold decodeQuadrant1
  split <;> exact prompt_plain _ t u

theorem prompt_decodeQuadrant2 (y z : BitVec 3) : Prompt (decodeQuadrant2 y z) := by
  intro t u
  unfold decodeQuadrant2
  split <;> exact prompt_plain _ t u

theorem prompt_decodeQuadrant3 (y z : BitVec 3) : Prompt (decodeQuadrant3 y z) := by
  intro t u
  unfold decodeQuadrant3
  dsimp only
  repeat' split
  all_goals first
    | exact prompt_plain _ t u | exact prompt_withByte _ t u | exact prompt_withWord _ t u
    | exact prompt_afterPrefix prompt_decodeCb t u | exact prompt_afterPrefix prompt_decodeDd t u
    | exact prompt_afterPrefix prompt_decodeEd t u | exact prompt_afterPrefix prompt_decodeFd t u

theorem prompt_decode : Prompt decode := by
  intro t u
  match t with
  | [] => exact fun h => absurd rfl h
  | op :: t =>
    unfold decode
    dsimp only [List.cons_append]
    split
    · exact prompt_decodeQuadrant0 _ _ t u
    · exact prompt_decodeQuadrant1 _ _ t u
    · exact prompt_decodeQuadrant2 _ _ t u
    · exact prompt_decodeQuadrant3 _ _ t u

/-! ### The fields of an opcode byte -/

section Fields
variable (q : BitVec 2) (y z : BitVec 3)

theorem quadrantField : (q ++ y ++ z : Byte).extractLsb' 6 2 = q := by
  revert q y z
  decide

theorem middleField : (q ++ y ++ z : Byte).extractLsb' 3 3 = y := by
  revert q y z
  decide

theorem lowField : (q ++ y ++ z : Byte).extractLsb' 0 3 = z := by
  revert q y z
  decide

end Fields

theorem reg8OfCode_code (r : Reg8) : reg8OfCode r.code = some r := by
  cases r <;> rfl

theorem condOfCode_code (cc : Cond) : condOfCode cc.code = cc := by
  cases cc <;> rfl

theorem nnHigh_append_nnLow (nn : Word) : nnHigh nn ++ nnLow nn = nn := Machine.highByte_append_lowByte nn

theorem withWord_halves (nn : Word) (k : Word → Instr) : withWord [nnLow nn, nnHigh nn] k = .ok (k nn, []) := by
  simp [withWord, nnHigh_append_nnLow]

/-- A restart address is its code times 8 (R101). -/
theorem restartOfCode_field (p : Byte) (h : restartAddress p = true) : restartOfCode (p.extractLsb' 3 3) = p := by
  revert p
  decide

end Sys2Proof

namespace Sys2Proof

/-! ### Decoding an encoding -/

/-- The decoder reads an encoding back, and all of it (R93). -/
theorem decode_encode (i : Instr) (h : WellFormed i = true) : decode (encode i) = .ok (i, []) := by
  match i with
  -- no field
  | .ldAMemBc | .ldAMemDe | .ldMemBcA | .ldMemDeA | .ldAI | .ldAR | .ldIA | .ldRA | .ldSpHl | .ldSpIx | .ldSpIy | .pushIx
  | .pushIy | .popIx | .popIy | .exDeHl | .exAfAf | .exx | .exMemSpHl | .exMemSpIx | .exMemSpIy | .ldi | .ldir | .ldd
  | .lddr | .cpi | .cpir | .cpd | .cpdr | .addMemHl | .adcMemHl | .subMemHl | .sbcMemHl | .andMemHl | .orMemHl | .xorMemHl
  | .cpMemHl | .incMemHl | .decMemHl | .daa | .cpl | .neg | .ccf | .scf | .nop | .halt | .di | .ei | .im0 | .im1 | .im2
  | .incIx | .incIy | .decIx | .decIy | .rlca | .rla | .rrca | .rra | .rlcMemHl | .rlMemHl | .rrcMemHl | .rrMemHl
  | .slaMemHl | .sraMemHl | .srlMemHl | .rld | .rrd | .jpHl | .jpIx | .jpIy | .ret | .reti | .retn | .ini | .inir | .ind
  | .indr | .outi | .otir | .outd | .otdr => rfl
  -- operand bytes
  | .ldMemHlImm _ | .ldMemIxImm .. | .ldMemIyImm .. | .addImm _ | .addMemIx _ | .addMemIy _ | .adcImm _ | .adcMemIx _
  | .adcMemIy _ | .subImm _ | .subMemIx _ | .subMemIy _ | .sbcImm _ | .sbcMemIx _ | .sbcMemIy _ | .andImm _
  | .andMemIx _ | .andMemIy _ | .orImm _ | .orMemIx _ | .orMemIy _ | .xorImm _ | .xorMemIx _ | .xorMemIy _ | .cpImm _
  | .cpMemIx _ | .cpMemIy _ | .incMemIx _ | .incMemIy _ | .decMemIx _ | .decMemIy _ | .rlcMemIx _ | .rlcMemIy _
  | .rlMemIx _ | .rlMemIy _ | .rrcMemIx _ | .rrcMemIy _ | .rrMemIx _ | .rrMemIy _ | .slaMemIx _ | .slaMemIy _
  | .sraMemIx _ | .sraMemIy _ | .srlMemIx _ | .srlMemIy _ | .jr _ | .jrC _ | .jrNc _ | .jrZ _ | .jrNz _ | .djnz _
  | .inAImm _ | .outImmA _ => rfl
  -- a 16-bit operand
  | .ldAMemNn nn | .ldMemNnA nn | .ldIxImm nn | .ldIyImm nn | .ldHlMemNn nn | .ldIxMemNn nn | .ldIyMemNn nn | .ldMemNnHl nn
  | .ldMemNnIx nn | .ldMemNnIy nn | .jp nn | .call nn => exact withWord_halves nn _
  -- a register code
  | .ldRegImm r _ | .ldRegMemHl r | .ldRegMemIx r _ | .ldRegMemIy r _ | .ldMemHlReg r | .ldMemIxReg _ r | .ldMemIyReg _ r
  | .addReg r | .adcReg r | .subReg r | .sbcReg r | .andReg r | .orReg r | .xorReg r | .cpReg r | .incReg r | .decReg r
  | .rlcReg r | .rlReg r | .rrcReg r | .rrReg r | .slaReg r | .sraReg r | .srlReg r | .outCReg r => cases r <;> rfl
  | .ldRegReg r r' => cases r <;> cases r' <;> rfl
  | .inRegC (.reg r) => cases r <;> rfl
  | .inRegC .flagsOnly => rfl
  -- a pair code
  | .pushPair p | .popPair p | .addHlPair p | .adcHlPair p | .sbcHlPair p | .addIxPair p | .addIyPair p | .incPair p
  | .decPair p => cases p <;> rfl
  | .ldPairImm p nn | .ldPairMemNn p nn => cases p <;> exact withWord_halves nn _
  | .ldMemNnPair nn p => cases p <;> exact withWord_halves nn (Instr.ldMemNnPair · _)
  -- a condition
  | .retCond cc => cases cc <;> rfl
  | .jpCond cc nn | .callCond cc nn => cases cc <;> exact withWord_halves nn _
  -- a bit number
  | .bitReg b r | .resReg b r =>
    change decodeCb (_ ++ b ++ r.code) [] = _
    simp only [decodeCb, quadrantField, middleField, lowField, reg8OfCode_code, plain]
  | .setReg b r =>
    change decodeCb (_ ++ b ++ r.code) [] = _
    simp only [decodeCb, quadrantField, middleField, lowField, reg8OfCode_code]
    rfl
  | .bitMemHl b | .resMemHl b =>
    change decodeCb (_ ++ b ++ 0b110#3) [] = _
    simp only [decodeCb, quadrantField, middleField, lowField, reg8OfCode, plain]
  | .setMemHl b =>
    change decodeCb (_ ++ b ++ 0b110#3) [] = _
    simp only [decodeCb, quadrantField, middleField, lowField]
    rfl
  | .bitMemIx b d | .resMemIx b d =>
    change decodeDdCb [d, _ ++ b ++ 0b110#3] = _
    simp only [decodeDdCb, quadrantField, middleField, lowField, plain]
  | .setMemIx b d =>
    change decodeDdCb [d, _ ++ b ++ 0b110#3] = _
    simp only [decodeDdCb, quadrantField, middleField, lowField]
    rfl
  | .bitMemIy b d | .resMemIy b d =>
    change decodeFdCb [d, _ ++ b ++ 0b110#3] = _
    simp only [decodeFdCb, quadrantField, middleField, lowField, plain]
  | .setMemIy b d =>
    change decodeFdCb [d, _ ++ b ++ 0b110#3] = _
    simp only [decodeFdCb, quadrantField, middleField, lowField]
    rfl
  -- a restart address
  | .rst p =>
    have hp : restartAddress p = true := h
    simp only [encode, decode, quadrantField, middleField, lowField, decodeQuadrant3, restartOfCode_field p hp]
    rfl

/-- Whatever bytes follow. -/
theorem decode_encode_append (i : Instr) (h : WellFormed i = true) (rest : List Byte) :
    decode (encode i ++ rest) = .ok (i, rest) := by
  rw [prompt_decode (encode i) rest (by rw [decode_encode i h]; nofun), decode_encode i h]
  rfl

/-- A part of an encoding asks for more bytes: had it an answer, the whole would have the same. -/
theorem decode_part {i : Instr} (h : WellFormed i = true) {got more : List Byte} (hg : got ++ more = encode i)
    (hm : more ≠ []) : decode got = .error .truncated := by
  by_contra hne
  have whole := prompt_decode got more hne
  rw [hg, decode_encode i h] at whole
  cases hd : decode got with
  | error e => rw [hd] at whole; cases whole
  | ok p =>
    obtain ⟨j, t⟩ := p
    rw [hd] at whole
    injection whole with whole
    injection whole with _ whole
    exact hm (List.append_eq_nil_iff.1 whole.symm).2

end Sys2Proof

/-! ## The fetch, and the step it begins: O5, O6 -/

namespace Sys2Proof.Machine

/-! ### The encoding of an instruction as the fetch meets it -/

theorem encode_ne_nil {i : Instr} (h : WellFormed i = true) : encode i ≠ [] := by
  intro hn
  have := decode_encode i h
  rw [hn] at this
  cases this

theorem encode_length_le (i : Instr) : (encode i).length ≤ 4 := by
  cases i <;> exact Nat.le_of_ble_eq_true rfl

/-- CB, DD, ED or FD alone is no instruction. -/
theorem isPrefix_eq_false_of_encode {i : Instr} (h : WellFormed i = true) {op : Byte} (he : encode i = [op]) :
    isPrefix op = false := by
  have hd := decode_encode i h
  rw [he] at hd
  rw [Bool.eq_false_iff]
  intro hp
  have four : op = 0xCB#8 ∨ op = 0xDD#8 ∨ op = 0xED#8 ∨ op = 0xFD#8 := by simpa [isPrefix, or_assoc] using hp
  rcases four with rfl | rfl | rfl | rfl <;> cases hd

/-! ### What fetching n bytes leaves -/

/-- The bytes stand in RAM or ROM from PC on. -/
def State.Holds (s : State) (bs : List Byte) : Prop :=
  ∀ (k : Nat) (h : k < bs.length),
    s.isPlain (s.pc + BitVec.ofNat 16 k) ∧ s.byteAt (s.pc + BitVec.ofNat 16 k) = bs[k]

/-- The opcode fetch cycles among the cycles that fetch `rest` behind `got` (R33). -/
def m1Cycles (got rest : List Byte) : Nat :=
  match rest with
  | [] => 0
  | v :: t => m1Cycles (got ++ [v]) t + if isOpcodeByte got then 1 else 0

/-- The bus cycle that fetches the byte v, behind `got`. -/
def fetchEvent (got : List Byte) (a : Word) (v : Byte) : BusEvent :=
  if isOpcodeByte got then .opFetch a v else .memRead a v

/-- The bus cycles that fetch `rest` behind `got`, the newest first. -/
def fetchEvents (got rest : List Byte) (pc : Word) : List BusEvent :=
  match rest with
  | [] => []
  | v :: t => fetchEvents (got ++ [v]) t (pc + 1#16) ++ [fetchEvent got pc v]

/-- The devices after n M1 cycles: the second finds nothing left to do (R552). -/
def devicesAfterM1 (n : Nat) (ds : List Device) : List Device := if n = 0 then ds else ds.map Device.m1

/-- The state behind the fetch of `rest`, of which `got` was fetched before. -/
def State.past (s : State) (got rest : List Byte) : State :=
  { s with
    pc := s.pc + BitVec.ofNat 16 rest.length
    r := refreshed (m1Cycles got rest) s.r
    devices := devicesAfterM1 (m1Cycles got rest) s.devices
    busLog := fetchEvents got rest s.pc ++ s.busLog }

/-! ### R and the devices, M1 cycle by M1 cycle (R33, R552) -/

theorem refreshed_zero (r : Byte) : refreshed 0 r = r := by
  revert r
  decide

theorem refreshed_bit7 (x : BitVec 1) (y : BitVec 7) : (x ++ y : Byte).extractLsb' 7 1 = x := by
  revert x y
  decide

theorem refreshed_low (x : BitVec 1) (y : BitVec 7) : (x ++ y : Byte).extractLsb' 0 7 = y := by
  revert x y
  decide

theorem refreshed_refreshed (m n : Nat) (r : Byte) : refreshed m (refreshed n r) = refreshed (m + n) r := by
  unfold refreshed
  rw [refreshed_bit7, refreshed_low, Nat.add_comm m n, BitVec.ofNat_add, BitVec.add_assoc]

theorem PioPort.m1_of_not_waiting {p : PioPort} (h : p.enableNext = false) (b : Bool) : p.m1 b = p := by
  simp [PioPort.m1, h]

/-- Behind an M1 cycle no interrupt enable waits for one, and the port's mode is what it was. -/
theorem PioPort.m1_spec (p : PioPort) (b : Bool) : (p.m1 b).enableNext = false ∧ (p.m1 b).mode = p.mode := by
  unfold PioPort.m1 PioPort.testLines
  split
  · dsimp only
    split
    · exact ⟨rfl, rfl⟩
    · split <;> exact ⟨rfl, rfl⟩
  · next h => exact ⟨by simpa using h, rfl⟩

theorem PioPort.m1_m1 (p : PioPort) (b : Bool) : (p.m1 b).m1 b = p.m1 b :=
  PioPort.m1_of_not_waiting (p.m1_spec b).1 b

theorem Device.m1_m1 (d : Device) : d.m1.m1 = d.m1 := by
  cases d with
  | ctc c => rfl
  | pio p =>
    have silent : p.m1.silentB = p.silentB := congrArg (· == .bidirectional) (p.portA.m1_spec false).2
    change Device.pio { p.m1 with portA := p.m1.portA.m1 false, portB := p.m1.portB.m1 p.m1.silentB } = .pio p.m1
    rw [silent]
    exact congrArg₂ (fun a b => Device.pio { p with portA := a, portB := b }) (p.portA.m1_m1 false)
      (p.portB.m1_m1 p.silentB)

theorem devicesAfterM1_succ (n : Nat) (ds : List Device) :
    devicesAfterM1 n (ds.map Device.m1) = devicesAfterM1 (n + 1) ds := by
  unfold devicesAfterM1
  split
  · rfl
  · rw [if_neg (Nat.succ_ne_zero n), List.map_map]
    exact List.map_congr_left fun d _ => d.m1_m1

/-! ### Byte by byte -/

theorem one_add_ofNat (n : Nat) : 1#16 + BitVec.ofNat 16 n = BitVec.ofNat 16 (n + 1) := by
  rw [Nat.add_comm, BitVec.ofNat_add]

section Plain
variable {s : State}

theorem State.Holds.head {v : Byte} {t : List Byte} (h : s.Holds (v :: t)) : s.isPlain s.pc ∧ s.byteAt s.pc = v := by
  simpa using h 0 (Nat.zero_lt_succ _)

/-- PC moved by one, the rest of the bytes stands there. -/
theorem State.Holds.tail {v : Byte} {t : List Byte} (h : s.Holds (v :: t)) {u : State} (hpc : u.pc = s.pc + 1#16)
    (hmem : u.mem = s.mem) (hmap : u.memMap = s.memMap) : u.Holds t := by
  intro k hk
  have next := h (k + 1) (Nat.succ_lt_succ hk)
  have addr : s.pc + BitVec.ofNat 16 (k + 1) = u.pc + BitVec.ofNat 16 k := by
    rw [hpc, BitVec.add_assoc, one_add_ofNat]
  rw [addr] at next
  simpa [State.isPlain, State.byteAt, hmem, hmap] using next

/-- One byte fetched, then the rest: the whole. -/
theorem State.past_fetchByte (hu : s.Undisturbed) {got : List Byte} {v : Byte} {t : List Byte} (h : s.Holds (v :: t)) :
    (s.fetchByte (isOpcodeByte got)).past (got ++ [v]) t = s.past got (v :: t) := by
  obtain ⟨hplain, hv⟩ := h.head
  rw [State.fetchByte_plain hu hplain]
  cases ho : isOpcodeByte got with
  | true =>
    simp [State.past, m1Cycles, fetchEvents, fetchEvent, ho, refreshed_refreshed, devicesAfterM1_succ, hv,
      BitVec.add_assoc, one_add_ofNat]
  | false => simp [State.past, m1Cycles, fetchEvents, fetchEvent, ho, hv, BitVec.add_assoc, one_add_ofNat]

theorem State.past_nil (got : List Byte) : s.past got [] = s := by
  simp [State.past, m1Cycles, fetchEvents, devicesAfterM1, refreshed_zero]

/-- Behind `got`, the fetch goes on byte by byte to the end of the encoding (R65, R69, R90). -/
theorem State.fetchFrom_encode {i : Instr} (hw : WellFormed i = true) (rest : List Byte) :
    ∀ (got : List Byte) (s : State) (fuel : Nat), got ++ rest = encode i → rest ≠ [] → rest.length ≤ fuel →
      s.Undisturbed → s.Holds rest → s.fetchFrom fuel got = (.ok i, s.past got rest) := by
  induction rest with
  | nil => exact fun _ _ _ _ hne => absurd rfl hne
  | cons v t ih =>
    intro got s fuel hgot _ hfuel hu h
    obtain ⟨hplain, hv⟩ := h.head
    obtain ⟨n, rfl⟩ : ∃ n, fuel = n + 1 := ⟨fuel - 1, by simp at hfuel; omega⟩
    have hgot' : (got ++ [v]) ++ t = encode i := by rw [← hgot]; simp
    have same := State.fetchByte_plain hu hplain (isOpcodeByte got)
    rw [← State.past_fetchByte hu h]
    unfold State.fetchFrom
    dsimp only
    rw [State.read8_plain hplain, hv]
    by_cases ht : t = []
    · subst ht
      rw [show got ++ [v] = encode i by simpa using hgot', decode_encode i hw, ← hgot, State.past_nil]
    · rw [decode_part hw hgot' ht]
      dsimp only
      refine ih _ _ n hgot' ht (by simpa using hfuel) ?_ (h.tail ?_ ?_ ?_)
      · rw [same]
        exact hu
      · rw [same]
      · rw [same]
      · rw [same]

end Plain

/-! ### The whole instruction -/

theorem m1Cycles_operands (rest : List Byte) : ∀ got : List Byte, 2 ≤ got.length → m1Cycles got rest = 0 := by
  induction rest with
  | nil => exact fun _ _ => rfl
  | cons v t ih =>
    intro got h
    match got, h with
    | a :: b :: l, _ => exact ih (a :: b :: l ++ [v]) (by simp)

/-- The opcode fetch cycles of an instruction: one, and one more behind CB, DD, ED or FD (R33). -/
theorem m1Cycles_encode {i : Instr} (h : WellFormed i = true) : m1Cycles [] (encode i) = i.fetchCycles := by
  unfold Instr.fetchCycles
  match he : encode i with
  | [] => exact absurd he (encode_ne_nil h)
  | [op] => simp [m1Cycles, isOpcodeByte, isPrefix_eq_false_of_encode h he]
  | op :: v :: t =>
    have operands : m1Cycles [op, v] t = 0 := m1Cycles_operands t [op, v] (by simp)
    cases hp : isPrefix op <;> simp [m1Cycles, isOpcodeByte, hp, operands]

theorem fetchEvents_eq (rest : List Byte) : ∀ (got : List Byte) (pc : Word), fetchEvents got rest pc =
    (rest.mapIdx fun k v => fetchEvent (got ++ rest.take k) (pc + BitVec.ofNat 16 k) v).reverse := by
  induction rest with
  | nil => exact fun _ _ => rfl
  | cons v t ih =>
    intro got pc
    simp [fetchEvents, ih, List.mapIdx_cons, BitVec.add_assoc, one_add_ofNat]

theorem fetchEvents_nil (bytes : List Byte) (pc : Word) : fetchEvents [] bytes pc = fetchLog pc bytes :=
  fetchEvents_eq bytes [] pc

theorem devicesAfterM1_pos {n : Nat} (h : 0 < n) (ds : List Device) : devicesAfterM1 n ds = ds.map Device.m1 :=
  if_neg (Nat.ne_of_gt h)

theorem fetchCycles_pos {i : Instr} (h : WellFormed i = true) : 0 < i.fetchCycles := by
  unfold Instr.fetchCycles
  split
  · split <;> decide
  · next he => exact absurd he (encode_ne_nil h)

theorem State.past_encode (s : State) {i : Instr} (h : WellFormed i = true) : s.past [] (encode i) = s.fetched i := by
  unfold State.past State.fetched
  rw [m1Cycles_encode h, fetchEvents_nil, devicesAfterM1_pos (fetchCycles_pos h)]
  rfl

/-- The fetch finds the instruction whose bytes stand at PC (R31, R65, R69, R90). -/
theorem State.fetch_eq_fetched {s : State} {i : Instr} (hw : WellFormed i = true) (hu : s.Undisturbed)
    (h : s.HoldsAtPc i) : s.fetch = (.ok i, s.fetched i) := by
  rw [← State.past_encode s hw]
  exact State.fetchFrom_encode hw (encode i) [] s 4 rfl (encode_ne_nil hw) (encode_length_le i) hu h

/-! ### Which bytes come in opcode fetch cycles (R33) -/

theorem fetchCycles_eq (i : Instr) :
    i.fetchCycles = if (encode i).head? ∈ [some 0xCB#8, some 0xDD#8, some 0xED#8, some 0xFD#8] then 2 else 1 := by
  unfold Instr.fetchCycles
  cases encode i with
  | nil => rfl
  | cons op t => simp [isPrefix, or_assoc]

theorem isOpcodeByte_take {bs : List Byte} {k : Nat} (h : k < bs.length) :
    isOpcodeByte (bs.take k) = true ↔ k = 0 ∨ (k = 1 ∧ isPrefix bs[0] = true) := by
  match k, bs, h with
  | 0, _, _ => simp [isOpcodeByte]
  | 1, a :: _, _ => simp [isOpcodeByte]
  | k + 2, a :: b :: l, _ => simp [isOpcodeByte]

theorem fetchLog_length (pc : Word) (bs : List Byte) : (fetchLog pc bs).length = bs.length := by
  simp [fetchLog]

/-- The cycle that fetches byte k, counted from the oldest. -/
theorem fetchLog_getElem (pc : Word) (bs : List Byte) (k : Nat) (h : k < bs.length) :
    (fetchLog pc bs)[bs.length - 1 - k]? = some (fetchEvent (bs.take k) (pc + BitVec.ofNat 16 k) bs[k]) := by
  unfold fetchLog
  rw [List.getElem?_reverse (by rw [List.length_mapIdx]; omega), List.length_mapIdx,
    show bs.length - 1 - (bs.length - 1 - k) = k by omega, List.getElem?_mapIdx, List.getElem?_eq_getElem h]
  rfl

/-- Settles O5: the fetch byte by byte, by induction on the bytes still to come; the decoder asks for more until the
encoding is whole. -/
theorem fetchFindsTheInstruction : Obligations.FetchFindsTheInstruction := by
  refine ⟨fun s i hw hu h => ⟨State.fetch_eq_fetched hw hu h, rfl⟩, fun i _ => fetchCycles_eq i,
    fun pc bs k h => ⟨fetchLog_length pc bs, ?_⟩⟩
  rw [fetchLog_getElem pc bs k h]
  unfold fetchEvent
  simp only [isOpcodeByte_take h]

/-! ### T states (R600, R601) -/

theorem instrCost_fixed {i : Instr} (h : variesInTime i = false) (s t : State) : instrCost i s = instrCost i t := by
  -- either the count reads nothing of the state, or the instruction is one that `h` excludes
  cases i <;> first | rfl | cases h

/-- A repeating instruction's last pass is the one at which it stops. -/
theorem repeatCost_ne {α : Type} [DecidableEq α] (a b : α) : repeatCost (a != b) = if a = b then 16 else 21 := by
  by_cases h : a = b <;> simp [repeatCost, h]

theorem repeatCost_ne_and_ne {α β : Type} [DecidableEq α] [DecidableEq β] (a b : α) (c d : β) :
    repeatCost (a != b && c != d) = if a = b ∨ c = d then 16 else 21 := by
  by_cases h : a = b <;> by_cases h' : c = d <;> simp [repeatCost, h, h']

theorem step_of_fetch_unabandoned {s u v : State} {i : Instr} (hb : s.busGranted = false) (hh : s.halted = false)
    (hr : (s.nextInput.reset && s.nextInput.abandons) = false) (hf : s.fetch = (.ok i, u))
    (he : exec i u = .next v) : step s = (v.elapse (instrCost i u)).boundary := by
  rw [step_of_fetch hb hh hf he, State.cutShort_eq v (by rw [State.fetch_nextInput hf]; exact hr)]

/-- Settles O6, with the fetch of O5 for the second clause. -/
theorem stepRunsTheDecodedInstruction : Obligations.StepRunsTheDecodedInstruction := by
  refine ⟨fun s u v i hb hh hr hf he => step_of_fetch_unabandoned hb hh hr hf he,
    fun s v i hb hh hr hw hu h he => step_of_fetch_unabandoned hb hh hr (State.fetch_eq_fetched hw hu h) he,
    fun _ _ => rfl, fun _ _ _ => ⟨rfl, rfl, rfl, rfl⟩, fun i s t h => instrCost_fixed h s t, fun s => ?costs⟩
  case costs =>
    refine ⟨fun _ => ⟨rfl, rfl, rfl, rfl, rfl⟩, fun _ _ => ⟨rfl, rfl⟩, ?transfers, ?searches, ?inputsAndOutputs, rfl, rfl,
      rfl, rfl, rfl, rfl, rfl, rfl, rfl⟩
    case transfers =>
      simp only [List.forall_mem_cons, List.not_mem_nil, false_implies, implies_true, and_true]
      exact ⟨repeatCost_ne _ _, repeatCost_ne _ _⟩
    case searches =>
      simp only [List.forall_mem_cons, List.not_mem_nil, false_implies, implies_true, and_true]
      exact ⟨repeatCost_ne_and_ne _ _ _ _, repeatCost_ne_and_ne _ _ _ _⟩
    case inputsAndOutputs =>
      simp only [List.forall_mem_cons, List.not_mem_nil, false_implies, implies_true, and_true]
      exact ⟨repeatCost_ne _ _, repeatCost_ne _ _, repeatCost_ne _ _, repeatCost_ne _ _⟩

end Sys2Proof.Machine

/-! ## What no step changes of memory: O21 -/

namespace Sys2Proof.Machine

/-- On the way from s to t memory has stayed canonical, and what occupies an address, and what memory holds where that
is no RAM, are as they were (R60, R480, 92 D25). -/
structure RomKept (s t : State) : Prop where
  wf : t.mem.wf = true
  memMap : t.memMap = s.memMap
  bytes : ∀ a k, kindAt s.memMap a = some k → t.byteAt a = s.byteAt a

namespace RomKept
variable {s t u : State}

theorem refl (h : s.mem.wf = true) : RomKept s s := ⟨h, rfl, fun _ _ _ => rfl⟩

/-- What leaves memory and its map alone. -/
theorem congr (h : RomKept s t) (hmem : u.mem = t.mem) (hmap : u.memMap = t.memMap) : RomKept s u := by
  refine ⟨hmem ▸ h.wf, hmap.trans h.memMap, fun a k hk => ?_⟩
  rw [← h.bytes a k hk, State.byteAt, State.byteAt, hmem]

/-! ### Bus cycles and the other bus master -/

/-- A store reaches RAM alone. -/
theorem storeMem (a : Word) (v : Byte) (h : RomKept s t) : RomKept s (t.storeMem a v) := by
  refine ⟨State.storeMem_wf t a v h.wf, h.memMap, fun b k hk => ?_⟩
  have noRam : ¬(b = a ∧ kindAt t.memMap a = none) := by
    rintro ⟨rfl, hn⟩
    rw [h.memMap, hk] at hn
    cases hn
  rw [State.byteAt_storeMem t a v h.wf, if_neg noRam, h.bytes b k hk]

theorem dmaAccess (x : DmaAccess) (h : RomKept s t) : RomKept s (t.dmaAccess x) := by
  cases x with
  | memRead a => exact h.congr (by simp [State.dmaAccess]) (by simp)
  | memWrite a v => exact (h.storeMem a v).congr rfl rfl
  | ioRead port => exact h.congr rfl rfl
  | ioWrite port v => exact h.congr rfl rfl

theorem dma (l : List DmaAccess) (h : RomKept s t) : RomKept s (t.dma l) := by
  unfold State.dma
  induction l generalizing t with
  | nil => exact h
  | cons x l ih => exact ih (h.dmaAccess x)

theorem endCycle (h : RomKept s t) : RomKept s t.endCycle := by
  unfold State.endCycle
  split
  · exact dma _ (h.congr rfl rfl)
  · exact h

theorem afterRead8 (a : Word) (h : RomKept s t) : RomKept s (t.afterRead8 a) :=
  endCycle (h.congr (by simp) (by simp))

theorem write8 (a : Word) (v : Byte) (h : RomKept s t) : RomKept s (t.write8 a v) :=
  endCycle ((h.storeMem a v).congr rfl rfl)

theorem afterFetch (h : RomKept s t) : RomKept s t.afterFetch := endCycle (h.congr (by simp) (by simp))

theorem afterIoRead (port : Word) (h : RomKept s t) : RomKept s (t.afterIoRead port) := endCycle (h.congr rfl rfl)

theorem ioWrite (port : Word) (v : Byte) (h : RomKept s t) : RomKept s (t.ioWrite port v) :=
  endCycle (h.congr rfl rfl)

theorem elapse (n : Nat) (h : RomKept s t) : RomKept s (t.elapse n) := h.congr rfl rfl

theorem callTo (target : Word) (h : RomKept s t) : RomKept s (t.callTo target) :=
  ((h.write8 (t.sp - 1#16) (highByte t.pc)).write8 (t.sp - 2#16) (lowByte t.pc)).congr rfl rfl

theorem callVector (v : Byte) (h : RomKept s t) : RomKept s (t.callVector v) :=
  have pushed : RomKept s (t.push16 t.pc) := (h.callTo 0#16).congr rfl rfl
  ((pushed.afterRead8 (t.i ++ v)).afterRead8 (t.i ++ v + 1#16)).congr rfl rfl

/-! ### Instructions and their fetch -/

theorem fetch {r : Except DecodeError Instr} (h : RomKept s t) (hf : t.fetch = (r, u)) : RomKept s u := by
  refine State.fetch_induct (P := RomKept s) (fun w opcode hw => ?_) hf h
  cases opcode with
  | true => exact hw.afterFetch.congr rfl rfl
  | false => exact (hw.afterRead8 w.pc).congr rfl rfl

/-- Of the moves open to an instruction only the memory write stores anything. -/
theorem mayReach {i : Instr} (h : RomKept s t) (hr : MayReach i t u) : RomKept s u := by
  induction hr with
  | start => exact h
  | read8 a _ ih => exact ih.afterRead8 a
  | write8 a v _ ih => exact ih.write8 a v
  | ioRead _ port _ ih => exact ih.afterIoRead port
  | ioWrite _ port v _ ih => exact ih.ioWrite port v
  | working _ _ _ _ _ _ _ _ ih => exact ih.congr rfl rfl
  | setI _ _ _ ih | setR _ _ _ ih | setIm _ _ _ ih | setEnables _ _ _ ih | copyIff2 _ _ ih | halt _ _ ih
  | retiSeen _ _ ih | setAlt _ _ _ ih => exact ih.congr rfl rfl

theorem exec {i : Instr} (h : RomKept s t) (he : Machine.exec i t = .next u) : RomKept s u :=
  h.mayReach (.of_exec he)

/-! ### RESET and the interrupts -/

/-- An abandoned instruction leaves each byte old or new (R570): where there is no RAM the two are the same. -/
theorem abandoned (h : RomKept s t) (hu : RomKept s u) : RomKept s (t.abandoned u) := by
  obtain ⟨hwf, hbytes⟩ := State.abandoned_memory h.wf hu.wf
  refine ⟨hwf, hu.memMap, fun a k hk => ?_⟩
  rcases hbytes a.toNat with hold | hnew
  · exact hold.trans (h.bytes a k hk)
  · exact hnew.trans (hu.bytes a k hk)

theorem cutShort (h : RomKept s t) (hu : RomKept s u) : RomKept s (t.cutShort u) := by
  rcases State.cutShort_cases t u with e | ⟨_, _, e⟩
  · rwa [e]
  · rw [e]
    exact h.abandoned hu

theorem accepted (b : BoundaryInput) (h : RomKept s t) (hu : RomKept s u) : RomKept s (t.accepted b u) := by
  unfold State.accepted
  split
  · exact (h.abandoned hu).congr rfl rfl
  · exact hu

theorem enterInterrupt (k : InterruptKind) (b : Byte) (h : RomKept s t) : RomKept s (t.enterInterrupt k b) := by
  cases k with
  | nonMaskable => exact afterFetch (h.congr rfl rfl)
  | maskable => exact endCycle (h.congr rfl rfl)

theorem acceptNmi (h : RomKept s t) : RomKept s t.acceptNmi :=
  ((h.enterInterrupt .nonMaskable 0#8).callTo nmiEntry).elapse nmiCost

theorem acceptInt {b : Byte} (h : RomKept s t) (hu : t.acceptInt b = .next u) : RomKept s u := by
  have entered := h.enterInterrupt .maskable b
  rcases State.acceptInt_cases hu with ⟨_, h0⟩ | ⟨_, rfl⟩ | ⟨_, rfl⟩
  · rcases State.respondMode0_cases h0 with ⟨_, rfl⟩ | ⟨_, _, i, _, w, _, hw, rfl⟩
    · exact (entered.callTo _).elapse restartCost
    · exact (entered.exec hw).congr rfl rfl
  · exact (entered.callTo mode1Entry).elapse restartCost
  · exact (entered.callVector _).elapse mode2Cost

/-! ### The boundary and the step -/

theorem sampleInterrupts {b : BoundaryInput} (h : RomKept s t) (hu : t.sampleInterrupts b = .next u) :
    RomKept s u := by
  rcases State.sampleInterrupts_cases hu with ⟨_, rfl⟩ | ⟨_, _, rfl⟩ | ⟨_, _, _, _, w, hw, rfl⟩ | ⟨_, _, _, rfl⟩
  · exact h.congr rfl rfl
  · exact h.accepted b h.acceptNmi
  · exact h.accepted b (h.acceptInt hw)
  · exact h

theorem boundary (h : RomKept s t) (hu : t.boundary = .next u) : RomKept s u := by
  have arrived : RomKept s (t.arrive t.nextInput) := h.congr (by simp) (by simp)
  rcases State.boundary_cases hu with ⟨_, rfl⟩ | ⟨_, _, rfl⟩ | ⟨_, _, hs⟩
  · exact arrived.congr rfl rfl
  · exact dma _ (arrived.congr rfl rfl)
  · have released : RomKept s { t.arrive t.nextInput with busGranted := false } := arrived.congr rfl rfl
    exact released.sampleInterrupts hs

theorem step (h : RomKept s t) (hu : Machine.step t = .next u) : RomKept s u := by
  rcases step_cases hu with ⟨_, hb⟩ | ⟨_, _, hb⟩ | ⟨_, _, i, v, w, hf, hw, hb⟩
  · exact h.boundary hb
  · exact (h.afterFetch.elapse haltCost).boundary hb
  · have fetched := h.fetch hf
    exact ((fetched.cutShort (fetched.exec hw)).elapse (instrCost i v)).boundary hb

end RomKept

/-- Settles O21: every store goes through `State.storeMem`, which reaches RAM alone, and RESET mixes two memories that
agree elsewhere. -/
theorem noStepChangesRom : Obligations.NoStepChangesRom := by
  intro s t a k hm hk ht
  have kept := (RomKept.refl hm).step ht
  have same := kept.bytes a k hk
  refine ⟨kept.memMap, same, ?_⟩
  rintro rfl
  rw [State.read8_plain (.inr hk), State.read8_plain (.inr (by rw [kept.memMap]; exact hk)), same]

end Sys2Proof.Machine

/-! ## Memory cycles and the bus grant: O28, O11 -/

namespace Sys2Proof.Machine

/-! ### What answers a read (R60, parameter MEM) -/

theorem State.read8_device {s : State} {a : Word} (h : kindAt s.memMap a = some .device) :
    s.read8 a = s.memReplies.headD (Config.freeByte s.draws) := by
  simp [State.read8, State.memByte, h]

theorem State.answerMem_device {s : State} {a : Word} (h : kindAt s.memMap a = some .device) :
    s.answerMem a = { s with memReplies := s.memReplies.tail, draws := s.draws + 1 } := by
  simp [State.answerMem, h]

theorem State.read8_absent {s : State} {a : Word} (h : kindAt s.memMap a = some .absent) :
    s.read8 a = Config.freeByte s.draws := by
  simp [State.read8, State.memByte, h]

theorem State.answerMem_absent {s : State} {a : Word} (h : kindAt s.memMap a = some .absent) :
    s.answerMem a = { s with draws := s.draws + 1 } := by
  simp [State.answerMem, h]

/-! ### The cycles (R63 to R69, R75) -/

theorem State.endCycle_of_queued {u : State} {l : List DmaAccess} {t : List (List DmaAccess)}
    (hg : u.params.dmaGrain = .machineCycle) (hq : u.cycleDma = l :: t) :
    u.endCycle = State.dma { u with cycleDma := t } l := by
  unfold State.endCycle
  rw [hg, hq]

/-- What answers a read adds no bus cycle of its own. -/
theorem State.answerMem_logged (s : State) (a : Word) (e : BusEvent) :
    (s.answerMem a).logged e = { s.answerMem a with busLog := e :: s.busLog } := by
  simp [State.logged]

theorem State.afterRead8_eq_endCycle (s : State) (a : Word) :
    s.afterRead8 a = State.endCycle { s.answerMem a with busLog := .memRead a (s.read8 a) :: s.busLog } :=
  congrArg State.endCycle (s.answerMem_logged a _)

theorem State.afterFetch_eq_endCycle (s : State) :
    s.afterFetch =
      State.endCycle { s.answerMem s.pc with
        r := refreshed 1 s.r
        devices := s.devices.map Device.m1
        busLog := .opFetch s.pc (s.read8 s.pc) :: s.busLog } := by
  simp [State.afterFetch, State.m1Cycle, State.logged]

/-- A write cycle up to its end: RAM alone takes the byte, and the bus has seen it once (R60, R69). -/
theorem State.storeMem_logged_took (s : State) (a : Word) (v : Byte) (h : s.mem.wf = true) :
    TookByte s ((s.storeMem a v).logged (.memWrite a v)) a v :=
  ⟨rfl, State.storeMem_wf s a v h, State.byteAt_storeMem s a v h⟩

/-- Settles O28: by what occupies the address, and each cycle as the state that its end is given. -/
theorem memoryCycles : Obligations.MemoryCycles :=
  ⟨fun _ hu => State.endCycle_eq hu,
    fun _ _ _ hg hq => State.endCycle_of_queued hg hq,
    fun _ _ => ⟨fun h => ⟨State.read8_plain h, State.answerMem_plain h⟩,
      fun h => ⟨State.read8_device h, State.answerMem_device h⟩,
      fun h => ⟨State.read8_absent h, State.answerMem_absent h⟩⟩,
    fun s a => ⟨s.afterRead8_eq_endCycle a, rfl, rfl, s.afterFetch_eq_endCycle⟩,
    fun s a v hm => ⟨_, rfl, s.storeMem_logged_took a v hm⟩⟩

/-! ### The bus grant (R75, R486) -/

theorem step_of_busGranted {s : State} (h : s.busGranted = true) : step s = s.boundary := by
  simp [step, h]

/-- A boundary with a bus request and no RESET hands the bus over (R488). -/
theorem State.boundary_eq_grantBus {s : State} (hr : s.nextInput.reset = false) (hb : s.nextInput.busreq = true) :
    s.boundary = .next (s.atBoundary.grantBus s.nextInput.dma) := by
  simp [State.boundary, State.decideBoundary, State.atBoundary, hr, hb]

/-- Settles O11: the boundary with a bus request is the grant, of which the CPU's own fields see nothing. -/
theorem busGrantHoldsTheCpu : Obligations.BusGrantHoldsTheCpu := by
  refine ⟨fun s h => step_of_busGranted h, fun s hr hb => ?grant, fun u => ⟨rfl, fun _ _ => rfl⟩,
    fun u a => u.answerMem_logged a _, fun u a v hm => ?write, fun u p v => ⟨rfl, rfl⟩⟩
  case grant =>
    refine ⟨_, State.boundary_eq_grantBus hr hb, rfl, ?_⟩
    simp [State.atBoundary]
  case write => exact ⟨rfl, State.storeMem_wf u a v hm, State.byteAt_storeMem u a v hm⟩

end Sys2Proof.Machine

/-! ## Input and output cycles: O29 -/

namespace Sys2Proof.Machine

/-! ### Who answers (R61, R70) -/

/-- The first device that claims the port answers, and the others are left alone. -/
theorem readDevices_of_claims {free lo : Byte} {d : Device} (hd : d.claims lo = true) (post : List Device) :
    ∀ pre : List Device, (∀ x ∈ pre, x.claims lo = false) →
      readDevices free lo (pre ++ d :: post) = some (d.read free lo, pre ++ d.afterRead lo :: post) := by
  intro pre
  induction pre with
  | nil => exact fun _ => by simp [readDevices, hd]
  | cons x t ih =>
    intro h
    obtain ⟨hx, ht⟩ := List.forall_mem_cons.1 h
    simp [readDevices, hx, ih ht]

theorem readDevices_eq_none {free lo : Byte} {ds : List Device} (h : ∀ x ∈ ds, x.claims lo = false) :
    readDevices free lo ds = none := by
  induction ds with
  | nil => rfl
  | cons x t ih =>
    obtain ⟨hx, ht⟩ := List.forall_mem_cons.1 h
    simp [readDevices, hx, ih ht]

theorem State.ioReply_of_claims {s : State} {port : Word} {pre post : List Device} {d : Device}
    (hs : s.devices = pre ++ d :: post) (hpre : ∀ x ∈ pre, x.claims (lowByte port) = false)
    (hd : d.claims (lowByte port) = true) :
    s.ioReply port =
      (d.read (Config.freeByte s.draws) (lowByte port), pre ++ d.afterRead (lowByte port) :: post, s.ioReplies) := by
  simp [State.ioReply, hs, readDevices_of_claims hd post pre hpre]

/-- Where no device of the platform answers: the next reply queued, else a free value (log 10). -/
theorem State.ioReply_of_unclaimed {s : State} {port : Word}
    (h : ∀ x ∈ s.devices, x.claims (lowByte port) = false) :
    s.ioReply port = (s.ioReplies.headD (Config.freeByte s.draws), s.devices, s.ioReplies.tail) := by
  unfold State.ioReply
  rw [readDevices_eq_none h]
  cases s.ioReplies <;> rfl

/-! ### The ports of a device (log 20) -/

/-- The six bits that select a device are the number of its group of four ports. -/
theorem toNat_extractLsb'_port (v : Byte) : (v.extractLsb' 2 6).toNat = v.toNat / 4 := by
  rw [BitVec.extractLsb'_toNat, Nat.shiftRight_eq_div_pow]
  exact Nat.mod_eq_of_lt (by have := v.isLt; omega)

theorem Device.claims_iff (d : Device) (lo : Byte) : d.claims lo = true ↔ lo.toNat / 4 = d.base.toNat / 4 := by
  rw [Device.claims, beq_iff_eq, ← BitVec.toNat_inj, toNat_extractLsb'_port, toNat_extractLsb'_port]

theorem Device.write_of_unclaimed {d : Device} {lo : Byte} (h : d.claims lo = false) (v : Byte) :
    d.write lo v = d := by
  simp [Device.write, h]

theorem Device.write_ctc {c : Ctc} {lo : Byte} (h : (Device.ctc c).claims lo = true) (v : Byte) :
    (Device.ctc c).write lo v = .ctc (c.write (lo.extractLsb' 0 2) v) :=
  if_pos h

theorem Device.write_pio {p : Pio} {lo : Byte} (h : (Device.pio p).claims lo = true) (v : Byte) :
    (Device.pio p).write lo v = .pio (p.write (lo.extractLsb' 0 2) v) :=
  if_pos h

/-- Settles O29: the reply by induction on the devices in front of the one that answers. -/
theorem inputOutputCycles : Obligations.InputOutputCycles := by
  refine ⟨fun s port v => ⟨rfl, rfl⟩, fun s port pre post d hs hpre hd => ?claimed, fun s port h => ?unclaimed,
    Device.claims_iff, fun d lo v h => Device.write_of_unclaimed h v,
    fun c lo v free h => ⟨Device.write_ctc h v, rfl, rfl⟩, fun p lo v free h => ⟨Device.write_pio h v, rfl, rfl⟩⟩
  case claimed =>
    have reply := State.ioReply_of_claims hs hpre hd
    exact ⟨congrArg (·.1) reply, congrArg (·.2.1) reply, congrArg (·.2.2) reply⟩
  case unclaimed =>
    have reply := State.ioReply_of_unclaimed h
    exact ⟨congrArg (·.1) reply, congrArg (·.2.1) reply, congrArg (·.2.2) reply⟩

end Sys2Proof.Machine

/-! ## The decoder reads nothing but encodings: O1, O2 and O4 -/

namespace Sys2Proof

/-! ### What a decoder's answer says of the bytes it was given -/

/-- The instruction is well formed, and these are its bytes. -/
def HasBytes (i : Instr) (bs : List Byte) : Prop := WellFormed i = true ∧ encode i = bs

/-- The answer r to the bytes t, behind the bytes `pre` already read: where it is an instruction, `pre` and what was
taken of t are the instruction's encoding. -/
def Reads (pre t : List Byte) (r : Decoded) : Prop :=
  ∀ i rest, r = .ok (i, rest) → WellFormed i = true ∧ pre ++ t = encode i ++ rest

section Answers
variable {pre t : List Byte}

theorem reads_error {e : DecodeError} : Reads pre t (.error e) := nofun

theorem reads_plain {i : Instr} (h : HasBytes i pre) : Reads pre t (plain i t) := by
  rintro _ _ ⟨⟩
  exact ⟨h.1, by rw [h.2]⟩

theorem reads_withByte {k : Byte → Instr} (h : ∀ n, HasBytes (k n) (pre ++ [n])) : Reads pre t (withByte t k) := by
  match t with
  | [] => exact reads_error
  | n :: _ =>
    rintro _ _ ⟨⟩
    exact ⟨(h n).1, by simp [(h n).2]⟩

theorem reads_withTwoBytes {k : Byte → Byte → Instr} (h : ∀ d n, HasBytes (k d n) (pre ++ [d, n])) :
    Reads pre t (withTwoBytes t k) := by
  match t with
  | [] | [_] => exact reads_error
  | d :: n :: _ =>
    rintro _ _ ⟨⟩
    exact ⟨(h d n).1, by simp [(h d n).2]⟩

theorem nnLow_append (hi lo : Byte) : nnLow (hi ++ lo) = lo := 
  Machine.lowByte_append hi lo

theorem nnHigh_append (hi lo : Byte) : nnHigh (hi ++ lo) = hi := 
  Machine.highByte_append hi lo

theorem reads_withWord {k : Word → Instr} (h : ∀ nn, HasBytes (k nn) (pre ++ [nnLow nn, nnHigh nn])) :
    Reads pre t (withWord t k) := by
  match t with
  | [] | [_] => exact reads_error
  | lo :: hi :: _ =>
    rintro _ _ ⟨⟩
    exact ⟨(h _).1, by simp [(h _).2, nnLow_append, nnHigh_append]⟩

theorem reads_afterPrefix {p : Byte} {page : Byte → List Byte → Decoded}
    (h : ∀ op t, Reads [p, op] t (page op t)) : Reads [p] t (afterPrefix t page) := by
  match t with
  | [] => exact reads_error
  | op :: t' => exact h op t'

end Answers

/-! ### Field codes, read and written back (R96 to R101) -/

theorem eq_three_of_ne {q : BitVec 2} (h0 : q ≠ 0b00#2) (h1 : q ≠ 0b01#2) (h2 : q ≠ 0b10#2) : q = 0b11#2 := by
  revert q
  decide

/-- The eight values of a 3-bit field, for `cases … using`. -/
theorem bits3_cases {P : BitVec 3 → Prop} (h0 : P 0b000#3) (h1 : P 0b001#3) (h2 : P 0b010#3) (h3 : P 0b011#3)
    (h4 : P 0b100#3) (h5 : P 0b101#3) (h6 : P 0b110#3) (h7 : P 0b111#3) (y : BitVec 3) : P y := by
  have eight : ∀ k : BitVec 3, k = 0b000#3 ∨ k = 0b001#3 ∨ k = 0b010#3 ∨ k = 0b011#3 ∨ k = 0b100#3 ∨
      k = 0b101#3 ∨ k = 0b110#3 ∨ k = 0b111#3 := by decide
  rcases eight y with rfl | rfl | rfl | rfl | rfl | rfl | rfl | rfl <;> assumption

theorem code_of_reg8OfCode {k : BitVec 3} {r : Reg8} (h : reg8OfCode k = some r) : k = r.code := by
  cases k using bits3_cases <;> cases h <;> rfl

theorem reg8OfCode_none {k : BitVec 3} (h : reg8OfCode k = none) : k = 0b110#3 := by
  cases k using bits3_cases <;> cases h
  rfl

theorem code_condOfCode (k : BitVec 3) : (condOfCode k).code = k := by
  revert k
  decide

theorem code_inDestOfCode (k : BitVec 3) : (inDestOfCode k).code = k := by
  revert k
  decide

theorem code_pairOfCode (k : BitVec 2) : (pairOfCode k).code = k := by
  revert k
  decide

theorem code_pairXOfCode (k : BitVec 2) : (pairXOfCode k).code = k := by
  revert k
  decide

theorem code_pairYOfCode (k : BitVec 2) : (pairYOfCode k).code = k := by
  revert k
  decide

/-- The opcode byte from its three fields. -/
theorem byte_of_fields {op : Byte} {q : BitVec 2} {y z : BitVec 3} (hq : op.extractLsb' 6 2 = q)
    (hy : op.extractLsb' 3 3 = y) (hz : op.extractLsb' 0 3 = z) : q ++ y ++ z = op := by
  subst hq hy hz
  revert op
  decide

theorem exists_fields (op : Byte) : ∃ (q : BitVec 2) (y z : BitVec 3), op = q ++ y ++ z :=
  ⟨_, _, _, (byte_of_fields rfl rfl rfl).symm⟩

/-- The opcode byte that holds a pair code in bits 5 and 4. -/
theorem byte_of_pairFields {op : Byte} {q : BitVec 2} {k : BitVec 4} (hq : op.extractLsb' 6 2 = q)
    (hk : op.extractLsb' 0 4 = k) : q ++ op.extractLsb' 4 2 ++ k = op := by
  subst hq hk
  revert op
  decide

theorem lowNibble {op : Byte} {b : Bool} {z : BitVec 3} (hb : op.getLsbD 3 = b) (hz : op.extractLsb' 0 3 = z) :
    op.extractLsb' 0 4 = BitVec.ofBool b ++ z := by
  subst hb hz
  revert op
  decide

/-! ### The operation codes (R108, R109) -/

theorem hasBytes_aluReg (y : BitVec 3) (r : Reg8) : HasBytes (aluReg y r) [0b10#2 ++ y ++ r.code] := by
  cases y using bits3_cases <;> exact ⟨rfl, by cases r <;> rfl⟩

theorem hasBytes_aluMemHl (y : BitVec 3) : HasBytes (aluMemHl y) [0b10#2 ++ y ++ 0b110#3] := by
  cases y using bits3_cases <;> exact ⟨rfl, rfl⟩

theorem hasBytes_aluImm (y : BitVec 3) (n : Byte) : HasBytes (aluImm y n) [0b11#2 ++ y ++ 0b110#3, n] := by
  cases y using bits3_cases <;> exact ⟨rfl, rfl⟩

theorem hasBytes_aluMemIx (y : BitVec 3) (d : Byte) : HasBytes (aluMemIx y d) [0xDD#8, 0b10#2 ++ y ++ 0b110#3, d] := by
  cases y using bits3_cases <;> exact ⟨rfl, rfl⟩

theorem hasBytes_aluMemIy (y : BitVec 3) (d : Byte) : HasBytes (aluMemIy y d) [0xFD#8, 0b10#2 ++ y ++ 0b110#3, d] := by
  cases y using bits3_cases <;> exact ⟨rfl, rfl⟩

section Rotates
variable {y : BitVec 3} {d : Byte} {i : Instr}

theorem hasBytes_rotReg {r : Reg8} (h : rotReg y r = some i) : HasBytes i [0xCB#8, 0b00#2 ++ y ++ r.code] := by
  cases y using bits3_cases <;> cases h <;> exact ⟨rfl, by cases r <;> rfl⟩

theorem hasBytes_rotMemHl (h : rotMemHl y = some i) : HasBytes i [0xCB#8, 0b00#2 ++ y ++ 0b110#3] := by
  cases y using bits3_cases <;> cases h <;> exact ⟨rfl, rfl⟩

theorem hasBytes_rotMemIx (h : rotMemIx y d = some i) :
    HasBytes i [0xDD#8, 0xCB#8, d, 0b00#2 ++ y ++ 0b110#3] := by
  cases y using bits3_cases <;> cases h <;> exact ⟨rfl, rfl⟩

theorem hasBytes_rotMemIy (h : rotMemIy y d = some i) :
    HasBytes i [0xFD#8, 0xCB#8, d, 0b00#2 ++ y ++ 0b110#3] := by
  cases y using bits3_cases <;> cases h <;> exact ⟨rfl, rfl⟩

end Rotates

/-! ### The pages (R114 to R118) -/

theorem reads_decodeCb (op : Byte) (t : List Byte) : Reads [0xCB#8, op] t (decodeCb op t) := by
  obtain ⟨q, y, z, rfl⟩ := exists_fields op
  simp only [decodeCb, quadrantField, middleField, lowField]
  split
  -- the rotates and shifts
  · next hz =>
    obtain rfl := code_of_reg8OfCode hz
    split
    · next hi => exact reads_plain (hasBytes_rotReg hi)
    · exact reads_error
  · next hz =>
    obtain rfl := reg8OfCode_none hz
    split
    · next hi => exact reads_plain (hasBytes_rotMemHl hi)
    · exact reads_error
  -- BIT
  · next hz =>
    obtain rfl := code_of_reg8OfCode hz
    exact reads_plain ⟨rfl, rfl⟩
  · next hz =>
    obtain rfl := reg8OfCode_none hz
    exact reads_plain ⟨rfl, rfl⟩
  -- RES
  · next hz =>
    obtain rfl := code_of_reg8OfCode hz
    exact reads_plain ⟨rfl, rfl⟩
  · next hz =>
    obtain rfl := reg8OfCode_none hz
    exact reads_plain ⟨rfl, rfl⟩
  -- SET
  · next h0 h1 h2 hz =>
    obtain rfl := eq_three_of_ne h0 h1 h2
    obtain rfl := code_of_reg8OfCode hz
    exact reads_plain ⟨rfl, rfl⟩
  · next h0 h1 h2 hz =>
    obtain rfl := eq_three_of_ne h0 h1 h2
    obtain rfl := reg8OfCode_none hz
    exact reads_plain ⟨rfl, rfl⟩

theorem reads_decodeEd (op : Byte) (t : List Byte) : Reads [0xED#8, op] t (decodeEd op t) := by
  unfold decodeEd
  split
  case h_29 =>
    dsimp only
    split
    · next hq hz => exact reads_plain ⟨rfl, by rw [encode, code_inDestOfCode, byte_of_fields hq rfl hz]⟩
    · next hq hz =>
      split
      · next hy => exact reads_plain ⟨rfl, by rw [encode, byte_of_fields hq (code_of_reg8OfCode hy) hz]⟩
      · exact reads_error
    · next hq hz hb =>
      have hop : 0b01#2 ++ op.extractLsb' 4 2 ++ 0b0010#4 = op := byte_of_pairFields hq (lowNibble hb hz)
      exact reads_plain ⟨rfl, by rw [encode, code_pairOfCode, hop]⟩
    · next hq hz hb =>
      have hop : 0b01#2 ++ op.extractLsb' 4 2 ++ 0b1010#4 = op := byte_of_pairFields hq (lowNibble hb hz)
      exact reads_plain ⟨rfl, by rw [encode, code_pairOfCode, hop]⟩
    · next hq hz hb =>
      have hop : 0b01#2 ++ op.extractLsb' 4 2 ++ 0b0011#4 = op := byte_of_pairFields hq (lowNibble hb hz)
      exact reads_withWord fun _ => ⟨rfl, by rw [encode, code_pairOfCode, hop]; rfl⟩
    · next hq hz hb =>
      have hop : 0b01#2 ++ op.extractLsb' 4 2 ++ 0b1011#4 = op := byte_of_pairFields hq (lowNibble hb hz)
      exact reads_withWord fun _ => ⟨rfl, by rw [encode, code_pairOfCode, hop]; rfl⟩
    · exact reads_error
  all_goals exact reads_plain ⟨rfl, rfl⟩

theorem reads_decodeDdCb (t : List Byte) : Reads [0xDD#8, 0xCB#8] t (decodeDdCb t) := by
  match t with
  | [] | [_] => exact reads_error
  | d :: op :: t =>
    change Reads [0xDD#8, 0xCB#8, d, op] t _
    obtain ⟨q, y, z, rfl⟩ := exists_fields op
    simp only [decodeDdCb, quadrantField, middleField, lowField]
    split
    · split
      · next hi => exact reads_plain (hasBytes_rotMemIx hi)
      · exact reads_error
    · exact reads_plain ⟨rfl, rfl⟩
    · exact reads_plain ⟨rfl, rfl⟩
    · next h0 h1 h2 =>
      obtain rfl := eq_three_of_ne h0 h1 h2
      exact reads_plain ⟨rfl, rfl⟩
    · exact reads_error

theorem reads_decodeDd (op : Byte) (t : List Byte) : Reads [0xDD#8, op] t (decodeDd op t) := by
  unfold decodeDd
  split
  -- 21, 22, 2A; 34, 35; 36; CB; then the opcodes with a register, pair or operation field; then those without operand
  case h_1 | h_2 | h_3 => exact reads_withWord fun _ => ⟨rfl, rfl⟩
  case h_6 | h_7 => exact reads_withByte fun _ => ⟨rfl, rfl⟩
  case h_8 => exact reads_withTwoBytes fun _ _ => ⟨rfl, rfl⟩
  case h_14 => exact reads_decodeDdCb t
  case h_15 =>
    dsimp only
    split
    · next hq =>
      split
      · next hk => exact reads_plain ⟨rfl, by rw [encode, code_pairXOfCode, byte_of_pairFields hq hk]⟩
      · exact reads_error
    · next hq hy hz =>
      obtain rfl := byte_of_fields hq (code_of_reg8OfCode hy) (reg8OfCode_none hz)
      exact reads_withByte fun _ => ⟨rfl, rfl⟩
    · next r hq hy hz =>
      obtain rfl := byte_of_fields hq (reg8OfCode_none hy) (code_of_reg8OfCode hz)
      exact reads_withByte fun _ => ⟨rfl, by cases r <;> rfl⟩
    · next hq hz =>
      have alu := hasBytes_aluMemIx (op.extractLsb' 3 3)
      rw [byte_of_fields hq rfl (reg8OfCode_none hz)] at alu
      exact reads_withByte alu
    · exact reads_error
  all_goals exact reads_plain ⟨rfl, rfl⟩

theorem reads_decodeFdCb (t : List Byte) : Reads [0xFD#8, 0xCB#8] t (decodeFdCb t) := by
  match t with
  | [] | [_] => exact reads_error
  | d :: op :: t =>
    change Reads [0xFD#8, 0xCB#8, d, op] t _
    obtain ⟨q, y, z, rfl⟩ := exists_fields op
    simp only [decodeFdCb, quadrantField, middleField, lowField]
    split
    · split
      · next hi => exact reads_plain (hasBytes_rotMemIy hi)
      · exact reads_error
    · exact reads_plain ⟨rfl, rfl⟩
    · exact reads_plain ⟨rfl, rfl⟩
    · next h0 h1 h2 =>
      obtain rfl := eq_three_of_ne h0 h1 h2
      exact reads_plain ⟨rfl, rfl⟩
    · exact reads_error

theorem reads_decodeFd (op : Byte) (t : List Byte) : Reads [0xFD#8, op] t (decodeFd op t) := by
  unfold decodeFd
  split
  -- 21, 22, 2A; 34, 35; 36; CB; then the opcodes with a register, pair or operation field; then those without operand
  case h_1 | h_2 | h_3 => exact reads_withWord fun _ => ⟨rfl, rfl⟩
  case h_6 | h_7 => exact reads_withByte fun _ => ⟨rfl, rfl⟩
  case h_8 => exact reads_withTwoBytes fun _ _ => ⟨rfl, rfl⟩
  case h_14 => exact reads_decodeFdCb t
  case h_15 =>
    dsimp only
    split
    · next hq =>
      split
      · next hk => exact reads_plain ⟨rfl, by rw [encode, code_pairYOfCode, byte_of_pairFields hq hk]⟩
      · exact reads_error
    · next hq hy hz =>
      obtain rfl := byte_of_fields hq (code_of_reg8OfCode hy) (reg8OfCode_none hz)
      exact reads_withByte fun _ => ⟨rfl, rfl⟩
    · next r hq hy hz =>
      obtain rfl := byte_of_fields hq (reg8OfCode_none hy) (code_of_reg8OfCode hz)
      exact reads_withByte fun _ => ⟨rfl, by cases r <;> rfl⟩
    · next hq hz =>
      have alu := hasBytes_aluMemIy (op.extractLsb' 3 3)
      rw [byte_of_fields hq rfl (reg8OfCode_none hz)] at alu
      exact reads_withByte alu
    · exact reads_error
  all_goals exact reads_plain ⟨rfl, rfl⟩

theorem reads_decodeQuadrant0 (y z : BitVec 3) (t : List Byte) :
    Reads [0b00#2 ++ y ++ z] t (decodeQuadrant0 y z t) := by
  unfold decodeQuadrant0
  dsimp only
  cases z using bits3_cases
  · cases y using bits3_cases
    iterate 2 · exact reads_plain ⟨rfl, rfl⟩
    iterate 6 · exact reads_withByte fun _ => ⟨rfl, rfl⟩
  · cases y using bits3_cases
    iterate 4
      · exact reads_withWord fun _ => ⟨rfl, rfl⟩
      · exact reads_plain ⟨rfl, rfl⟩
  · cases y using bits3_cases
    iterate 4 · exact reads_plain ⟨rfl, rfl⟩
    iterate 4 · exact reads_withWord fun _ => ⟨rfl, rfl⟩
  · cases y using bits3_cases <;> exact reads_plain ⟨rfl, rfl⟩
  · cases y using bits3_cases <;> exact reads_plain ⟨rfl, rfl⟩
  · cases y using bits3_cases <;> exact reads_plain ⟨rfl, rfl⟩
  · cases y using bits3_cases <;> exact reads_withByte fun _ => ⟨rfl, rfl⟩
  · cases y using bits3_cases <;> exact reads_plain ⟨rfl, rfl⟩

theorem reads_decodeQuadrant1 (y z : BitVec 3) (t : List Byte) :
    Reads [0b01#2 ++ y ++ z] t (decodeQuadrant1 y z t) := by
  unfold decodeQuadrant1
  split
  · next hy hz =>
    obtain rfl := code_of_reg8OfCode hy
    obtain rfl := code_of_reg8OfCode hz
    exact reads_plain ⟨rfl, rfl⟩
  · next hy hz =>
    obtain rfl := code_of_reg8OfCode hy
    obtain rfl := reg8OfCode_none hz
    exact reads_plain ⟨rfl, rfl⟩
  · next r hy hz =>
    obtain rfl := reg8OfCode_none hy
    obtain rfl := code_of_reg8OfCode hz
    exact reads_plain ⟨rfl, by cases r <;> rfl⟩
  · next hy hz =>
    obtain rfl := reg8OfCode_none hy
    obtain rfl := reg8OfCode_none hz
    exact reads_plain ⟨rfl, rfl⟩

theorem reads_decodeQuadrant2 (y z : BitVec 3) (t : List Byte) :
    Reads [0b10#2 ++ y ++ z] t (decodeQuadrant2 y z t) := by
  unfold decodeQuadrant2
  split
  · next hz =>
    obtain rfl := code_of_reg8OfCode hz
    exact reads_plain (hasBytes_aluReg y _)
  · next hz =>
    obtain rfl := reg8OfCode_none hz
    exact reads_plain (hasBytes_aluMemHl y)

theorem reads_decodeQuadrant3 (y z : BitVec 3) (t : List Byte) :
    Reads [0b11#2 ++ y ++ z] t (decodeQuadrant3 y z t) := by
  unfold decodeQuadrant3
  dsimp only
  cases z using bits3_cases
  · cases y using bits3_cases <;> exact reads_plain ⟨rfl, rfl⟩
  · cases y using bits3_cases <;> exact reads_plain ⟨rfl, rfl⟩
  · cases y using bits3_cases <;> exact reads_withWord fun _ => ⟨rfl, rfl⟩
  · cases y using bits3_cases
    · exact reads_withWord fun _ => ⟨rfl, rfl⟩
    · exact reads_afterPrefix reads_decodeCb
    iterate 2 · exact reads_withByte fun _ => ⟨rfl, rfl⟩
    iterate 4 · exact reads_plain ⟨rfl, rfl⟩
  · cases y using bits3_cases <;> exact reads_withWord fun _ => ⟨rfl, rfl⟩
  · cases y using bits3_cases
    · exact reads_plain ⟨rfl, rfl⟩
    · exact reads_withWord fun _ => ⟨rfl, rfl⟩
    · exact reads_plain ⟨rfl, rfl⟩
    · exact reads_afterPrefix reads_decodeDd
    · exact reads_plain ⟨rfl, rfl⟩
    · exact reads_afterPrefix reads_decodeEd
    · exact reads_plain ⟨rfl, rfl⟩
    · exact reads_afterPrefix reads_decodeFd
  · exact reads_withByte (hasBytes_aluImm y)
  · cases y using bits3_cases <;> exact reads_plain ⟨rfl, rfl⟩

/-- Whatever the decoder answers, it has read an encoding (R93, R121). -/
theorem reads_decode (bytes : List Byte) : Reads [] bytes (decode bytes) := by
  match bytes with
  | [] => exact reads_error
  | op :: t =>
    change Reads [op] t _
    obtain ⟨q, y, z, rfl⟩ := exists_fields op
    simp only [decode, quadrantField, middleField, lowField]
    split
    · exact reads_decodeQuadrant0 y z t
    · exact reads_decodeQuadrant1 y z t
    · exact reads_decodeQuadrant2 y z t
    · next h0 h1 h2 =>
      obtain rfl := eq_three_of_ne h0 h1 h2
      exact reads_decodeQuadrant3 y z t

/-! ### The statements on the decoder alone -/

/-- Settles O1, by `decode_encode_append`. -/
theorem decodeInvertsEncode : Obligations.DecodeInvertsEncode := fun i rest h => decode_encode_append i h rest

/-- Settles O2: page by page, the answer's encoding is what was read. -/
theorem everyDecodedWordIsAnEncoding : Obligations.EveryDecodedWordIsAnEncoding :=
  fun bytes i rest h => reads_decode bytes i rest h

/-- Settles O4, by running the decoder on the ten words. -/
theorem decodesTheSpecsExamples : Obligations.DecodesTheSpecsExamples :=
  ⟨rfl, rfl, rfl, rfl, rfl, rfl, rfl, rfl, rfl, rfl⟩

end Sys2Proof

/-! ## What the decoder refuses, and the step there: O3 -/

namespace Sys2Proof
open Machine

/-! ### The opcode bytes that name no instruction

Operand bytes play no part in a refusal, so each page is run on all 256 opcode bytes with the operands left open. -/

theorem exists_error_iff {r : Decoded} : (∃ e, r = .error e) ↔ ¬ r.isOk = true := by
  cases r with
  | ok p => exact ⟨nofun, fun h => absurd rfl h⟩
  | error e => exact ⟨nofun, fun _ => ⟨e, rfl⟩⟩

theorem exists_ok_of_isOk {r : Decoded} (h : r.isOk = true) : ∃ i rest, r = .ok (i, rest) := by
  cases r with
  | ok p => exact ⟨p.1, p.2, rfl⟩
  | error e => cases h

theorem isOk_decode_cb (t : List Byte) :
    ∀ op, (decode (0xCB#8 :: op :: t)).isOk = true ↔ ¬ (0x30#8 ≤ op ∧ op ≤ 0x37#8) :=
  of_decide_eq_true rfl

section Operands
variable (x y : Byte) (t : List Byte)

theorem mem_of_isOk_decode_ed : ∀ op, (decode (0xED#8 :: op :: x :: y :: t)).isOk = true → op ∈ definedAfterEd :=
  of_decide_eq_true rfl

theorem isOk_decode_ed_of_mem : ∀ op ∈ definedAfterEd, (decode (0xED#8 :: op :: x :: y :: t)).isOk = true :=
  List.all_eq_true.1 rfl

theorem mem_of_isOk_decode_dd : ∀ op, op ≠ 0xCB#8 → (decode (0xDD#8 :: op :: x :: y :: t)).isOk = true →
    op ∈ definedAfterIndex :=
  of_decide_eq_true rfl

theorem isOk_decode_dd_of_mem : ∀ op ∈ definedAfterIndex, (decode (0xDD#8 :: op :: x :: y :: t)).isOk = true :=
  List.all_eq_true.1 rfl

theorem isOk_decode_fd_eq_dd : ∀ op, op ≠ 0xCB#8 →
    (decode (0xFD#8 :: op :: x :: y :: t)).isOk = (decode (0xDD#8 :: op :: x :: y :: t)).isOk :=
  of_decide_eq_true rfl

theorem isOk_decode_ddCb : ∀ op, (decode (0xDD#8 :: 0xCB#8 :: x :: op :: t)).isOk = true ↔
    op &&& 0x07#8 = 0x06#8 ∧ op ≠ 0x36#8 :=
  of_decide_eq_true rfl

theorem isOk_decode_fdCb : ∀ op, (decode (0xFD#8 :: 0xCB#8 :: x :: op :: t)).isOk = true ↔
    op &&& 0x07#8 = 0x06#8 ∧ op ≠ 0x36#8 :=
  of_decide_eq_true rfl

theorem isOk_decode : ∀ op, op ∉ [0xCB#8, 0xDD#8, 0xED#8, 0xFD#8] → (decode (op :: x :: y :: t)).isOk = true :=
  of_decide_eq_true rfl

end Operands
end Sys2Proof

namespace Sys2Proof.Machine

/-! ### The step at a refusal -/

theorem step_of_fetch_error {s u : State} {e : DecodeError} (hb : s.busGranted = false) (hh : s.halted = false)
    (hf : s.fetch = (.error e, u)) : step s = .refused (.undefinedEncoding e) := by
  simp [step, stepInstruction, hb, hh, hf]

/-- A part of what the decoder refuses is no instruction either. -/
theorem decode_error_of_append {got more : List Byte} {e : DecodeError} (h : decode (got ++ more) = .error e) :
    ∃ e', decode got = .error e' := by
  cases hd : decode got with
  | error e' => exact ⟨e', rfl⟩
  | ok p =>
    rw [prompt_decode got more (by rw [hd]; nofun), hd] at h
    cases h

/-- Where the bytes to come make no instruction behind `got`, the fetch finds none. -/
theorem State.fetchFrom_error {e : DecodeError} (rest : List Byte) :
    ∀ (got : List Byte) (s : State), s.Undisturbed → s.Holds rest → decode (got ++ rest) = .error e →
      ∃ e' u, s.fetchFrom rest.length got = (.error e', u) := by
  induction rest with
  | nil => exact fun _ s _ _ _ => ⟨.truncated, s, rfl⟩
  | cons v t ih =>
    intro got s hu h hd
    obtain ⟨hplain, hv⟩ := h.head
    rw [List.append_cons] at hd
    obtain ⟨e', he'⟩ := decode_error_of_append hd
    have same := State.fetchByte_plain hu hplain (isOpcodeByte got)
    rw [List.length_cons]
    unfold State.fetchFrom
    dsimp only
    rw [State.read8_plain hplain, hv, he']
    cases e' with
    | truncated =>
      refine ih _ _ ?_ (h.tail ?_ ?_ ?_) hd
      all_goals rw [same]
      exact hu
    | _ => exact ⟨_, _, rfl⟩

/-- Where the four bytes at PC hold no instruction, the fetch finds none (R120). -/
theorem State.fetch_error {s : State} {e : DecodeError} (hu : s.Undisturbed)
    (hp : ∀ k, k < 4 → s.isPlain (s.pc + BitVec.ofNat 16 k))
    (hd : decode [s.byteAt s.pc, s.byteAt (s.pc + 1#16), s.byteAt (s.pc + 2#16), s.byteAt (s.pc + 3#16)] = .error e) :
    ∃ e' u, s.fetch = (.error e', u) := by
  refine State.fetchFrom_error [_, _, _, _] [] s hu (fun k hk => ⟨hp k hk, ?_⟩) hd
  match k, hk with
  | 0, _ => exact congrArg s.byteAt (BitVec.add_zero s.pc)
  | 1, _ | 2, _ | 3, _ => rfl

/-- Settles O3: the page lists by running each page on every opcode byte, the step by the fetch. -/
theorem undefinedEncodingsAreRefused : Obligations.UndefinedEncodingsAreRefused := by
  refine ⟨fun op t => ?cb, fun op x y t => ?ed, fun p op x y t hp hcb => ?index, fun p d op t hp => ?indexCb,
    fun op x y t h => exists_ok_of_isOk (isOk_decode x y t op h),
    fun s e u hb hh hf => step_of_fetch_error hb hh hf, fun s e hb hh hu hp hd => ?step⟩
  case cb => rw [exists_error_iff, isOk_decode_cb, not_not]
  case ed => exact exists_error_iff.trans (not_congr ⟨mem_of_isOk_decode_ed x y t op, isOk_decode_ed_of_mem x y t op⟩)
  case index =>
    have dd : (decode (0xDD#8 :: op :: x :: y :: t)).isOk = true ↔ op ∈ definedAfterIndex :=
      ⟨mem_of_isOk_decode_dd x y t op hcb, isOk_decode_dd_of_mem x y t op⟩
    rw [exists_error_iff, not_congr]
    rcases hp with rfl | rfl
    · exact dd
    · rwa [isOk_decode_fd_eq_dd x y t op hcb]
  case indexCb =>
    rw [exists_error_iff, not_congr]
    rcases hp with rfl | rfl
    · exact isOk_decode_ddCb d t op
    · exact isOk_decode_fdCb d t op
  case step =>
    obtain ⟨e', u, hf⟩ := State.fetch_error hu hp hd
    exact ⟨e', step_of_fetch_error hb hh hf⟩

end Sys2Proof.Machine

/-! ## The 8-bit loads and stores: O30, O31 -/

namespace Sys2Proof.Machine

/-! ### Stores (40_load8.md R136 to R141, R145 to R147) -/

/-- An instruction whose meaning is one byte store changes that byte of memory and nothing else. -/
theorem tookByte_of_exec_eq_write8 {s : State} {i : Instr} {a : Word} {v : Byte} (hm : s.mem.wf = true)
    (hu : s.Undisturbed) (h : exec i s = .next (s.write8 a v)) : ∃ t, exec i s = .next t ∧ TookByte s t a v :=
  ⟨_, h, State.write8_took hu a v hm⟩

/-- Settles O31: each of the nine is one byte store, at its own address and of its own byte. -/
theorem byteStores : Obligations.ByteStores := by
  intro s hm hu
  have store {i : Instr} {a : Word} {v : Byte} := tookByte_of_exec_eq_write8 (i := i) (a := a) (v := v) hm hu
  exact ⟨fun _ => store rfl, fun _ _ => store rfl, fun _ _ => store rfl, fun _ => store rfl, fun _ _ => store rfl,
    fun _ _ => store rfl, store rfl, store rfl, fun _ => store rfl⟩

/-! ### Loads (40_load8.md R131 to R135, R142 to R144, R148 to R151) -/

/-- An instruction whose meaning is a load of A from memory: a read touches no register, so only A is new. -/
theorem exec_eq_next_of_setA {s : State} {i : Instr} {a : Word} {v : Byte}
    (h : exec i s = .next ((s.afterRead8 a).setA v)) :
    exec i s = .next { s.afterRead8 a with regs := { s.regs with a := v } } := by
  rw [h, State.setA, State.afterRead8_regs]

/-- The flags of LD A,I and LD A,R (R148, R149), their sign and zero as facts about the byte. -/
theorem interruptRegFlags_eq (v : Byte) (iff2 : Bool) (f : Flags) :
    interruptRegFlags v iff2 f =
      { s := v.msb, z := decide (v = 0#8), h := false, pv := iff2, n := false, c := f.c } := by
  rw [interruptRegFlags, BitVec.msb_eq_getLsbD_last]
  rfl

/-- LD A,R (R149), for both values of R_MODEL. -/
theorem exec_ldAR (s : State) :
    exec .ldAR s = .next (s.countRDraw.setAF (s.rValue, interruptRegFlags s.rValue s.iff2 s.regs.f)) := rfl

/-- With the exact R, LD A,R delivers the count and draws nothing (R33). -/
theorem exec_ldAR_exact {s : State} (h : s.params.rExact = true) :
    exec .ldAR s = .next (s.setAF (s.r, interruptRegFlags s.r s.iff2 s.regs.f)) := by
  simp [exec_ldAR, State.rValue, State.countRDraw, h]

/-- With the drawn R, LD A,R delivers bit 7 and seven drawn bits (R33, log 14). -/
theorem exec_ldAR_drawn {s : State} (h : s.params.rExact = false) :
    let v : Byte := s.r.extractLsb' 7 1 ++ (Config.freeByte s.draws).extractLsb' 0 7
    exec .ldAR s = .next (State.setAF { s with draws := s.draws + 1 } (v, interruptRegFlags v s.iff2 s.regs.f)) := by
  simp [exec_ldAR, State.rValue, State.countRDraw, h]

/-- Settles O30: each is the read and the named update of the register it loads; LD A,R by R_MODEL. -/
theorem byteLoads : Obligations.ByteLoads := by
  refine ⟨fun s r => ?register, fun s => ?accumulator, fun s => ?special⟩
  case register => exact ⟨fun _ => rfl, fun _ => rfl, rfl, fun _ => rfl, fun _ => rfl⟩
  case accumulator => exact ⟨exec_eq_next_of_setA rfl, exec_eq_next_of_setA rfl, fun _ => exec_eq_next_of_setA rfl⟩
  case special =>
    simp only [← interruptRegFlags_eq]
    exact ⟨rfl, exec_ldAR_exact, exec_ldAR_drawn, rfl, rfl⟩

end Sys2Proof.Machine

/-! ## The 16-bit loads and stores: O32, O33 -/

namespace Sys2Proof.Machine

/-! ### Stores (41_load16.md R168 to R171) -/

/-- An instruction whose meaning is one word store changes the two bytes of that word, low byte first, and nothing
else. -/
theorem tookTwo_of_exec_eq_write16 {s : State} {i : Instr} {a v : Word} (hm : s.mem.wf = true) (hu : s.Undisturbed)
    (h : exec i s = .next (s.write16 a v)) :
    ∃ t, exec i s = .next t ∧ TookTwo s t a (lowByte v) (a + 1#16) (highByte v) :=
  ⟨_, h, State.write16_took hu a v hm⟩

/-- The same for a pair of registers, whose second one is the low byte (R21). -/
theorem tookTwo_of_exec_eq_write16_append {s : State} {i : Instr} {a : Word} {hi lo : Byte} (hm : s.mem.wf = true)
    (hu : s.Undisturbed) (h : exec i s = .next (s.write16 a (hi ++ lo))) :
    ∃ t, exec i s = .next t ∧ TookTwo s t a lo (a + 1#16) hi := by
  simpa only [lowByte_append, highByte_append] using tookTwo_of_exec_eq_write16 hm hu h

/-- Settles O33: each of the seven is one word store to nn, of a pair of registers or of a 16-bit register. -/
theorem wordStores : Obligations.WordStores := by
  intro s nn hm hu
  have storePair {i : Instr} {hi lo : Byte} :=
    tookTwo_of_exec_eq_write16_append (i := i) (a := nn) (hi := hi) (lo := lo) hm hu
  have storeWord {i : Instr} {v : Word} := tookTwo_of_exec_eq_write16 (i := i) (a := nn) (v := v) hm hu
  exact ⟨storePair rfl, storePair rfl, storePair rfl, storePair rfl, storeWord rfl, storeWord rfl, storeWord rfl⟩

/-! ### Loads (41_load16.md R161 to R167, R172 to R174) -/

section Pairs
variable (s : State)

theorem State.setBc_append (hi lo : Byte) :
    s.setBc (hi ++ lo) = { s with regs := { s.regs with b := hi, c := lo } } := by
  rw [State.setBc, highByte_append, lowByte_append]

theorem State.setDe_append (hi lo : Byte) :
    s.setDe (hi ++ lo) = { s with regs := { s.regs with d := hi, e := lo } } := by
  rw [State.setDe, highByte_append, lowByte_append]

theorem State.setHl_append (hi lo : Byte) :
    s.setHl (hi ++ lo) = { s with regs := { s.regs with h := hi, l := lo } } := by
  rw [State.setHl, highByte_append, lowByte_append]

end Pairs

/-- Settles O32. A load from (nn) is its two reads, which touch no register, then the register takes the halves. -/
theorem wordLoads : Obligations.WordLoads := by
  intro s nn lo hi u
  have regs : u.regs = s.regs := State.afterRead16_regs s nn
  have bc : u.setBc (hi ++ lo) = { u with regs := { s.regs with b := hi, c := lo } } := by
    rw [State.setBc_append, regs]
  have de : u.setDe (hi ++ lo) = { u with regs := { s.regs with d := hi, e := lo } } := by
    rw [State.setDe_append, regs]
  have hl : u.setHl (hi ++ lo) = { u with regs := { s.regs with h := hi, l := lo } } := by
    rw [State.setHl_append, regs]
  exact ⟨⟨rfl, rfl, rfl, rfl⟩, rfl, rfl, congrArg Host.Outcome.next hl,
    ⟨congrArg Host.Outcome.next bc, congrArg Host.Outcome.next de, congrArg Host.Outcome.next hl, rfl⟩,
    rfl, rfl, rfl, rfl, rfl⟩

end Sys2Proof.Machine

/-! ## The exchange, block transfer and block search groups: O37, O38, O39, O41 -/

namespace Sys2Proof.Machine

/-! ### Exchanges of registers (42_exchange_block.md R191 to R193) -/

theorem exec_exDeHl (s : State) :
    exec .exDeHl s =
      .next { s with regs := { s.regs with d := s.regs.h, e := s.regs.l, h := s.regs.d, l := s.regs.e } } := by
  have e : exec .exDeHl s = .next ((s.setDe s.hl).setHl s.de) := rfl
  rw [e, State.hl, State.de, State.setDe_append, State.setHl_append]

theorem exec_exAfAf (s : State) :
    exec .exAfAf s =
      .next { s with regs := { s.regs with a := s.alt.a, f := s.alt.f }
                     alt := { s.alt with a := s.regs.a, f := s.regs.f } } := rfl

theorem exec_exx (s : State) :
    exec .exx s =
      .next { s with regs := { s.alt with a := s.regs.a, f := s.regs.f }
                     alt := { s.regs with a := s.alt.a, f := s.alt.f } } := rfl

/-- Each of the three exchanges undoes itself. -/
theorem exec_exchange_twice {i : Instr} (hi : i ∈ [Instr.exDeHl, .exAfAf, .exx]) (s : State) :
    ∃ t, exec i s = .next t ∧ exec i t = .next s := by
  simp only [List.mem_cons, List.not_mem_nil, or_false] at hi
  rcases hi with rfl | rfl | rfl
  · exact ⟨_, exec_exDeHl s, exec_exDeHl _⟩
  · exact ⟨_, exec_exAfAf s, exec_exAfAf _⟩
  · exact ⟨_, exec_exx s, exec_exx _⟩

/-- Settles O37. DD EBH and FD EBH are on no page of the decoder, whatever follows. -/
theorem registerExchanges : Obligations.RegisterExchanges :=
  ⟨⟨rfl, rfl, rfl⟩, fun _ => ⟨⟨_, rfl⟩, _, rfl⟩, ⟨rfl, rfl, rfl⟩, fun s =>
    ⟨⟨rfl, rfl, rfl⟩, exec_exDeHl s, exec_exAfAf s, exec_exx s, fun _ hi => exec_exchange_twice hi s⟩⟩

/-! ### Stores, and registers that change with them -/

/-- The update reads and writes neither memory's contents nor the log of bus cycles, and keeps the map. -/
def SparesMemory (f : State → State) : Prop :=
  ∀ (x : State) (m : Memory) (l : List BusEvent),
    f { x with mem := m, busLog := l } = { f x with mem := m, memMap := x.memMap, busLog := l }

theorem SparesMemory.mem_eq {f : State → State} (hf : SparesMemory f) (x : State) : (f x).mem = x.mem :=
  (congrArg State.mem (hf x x.mem x.busLog) :)

theorem SparesMemory.memMap_eq {f : State → State} (hf : SparesMemory f) (x : State) : (f x).memMap = x.memMap :=
  (congrArg State.memMap (hf x x.mem x.busLog) :)

theorem SparesMemory.busLog_eq {f : State → State} (hf : SparesMemory f) (x : State) : (f x).busLog = x.busLog :=
  (congrArg State.busLog (hf x x.mem x.busLog) :)

theorem SparesMemory.byteAt_eq {f : State → State} (hf : SparesMemory f) (x : State) (a : Word) :
    (f x).byteAt a = x.byteAt a := by
  rw [State.byteAt, hf.mem_eq, State.byteAt]

/-- Behind a state that differs from u in memory and the log alone, the update differs from f u in these alone. -/
theorem SparesMemory.eq_of_eq {f : State → State} (hf : SparesMemory f) {u t : State} {l : List BusEvent}
    (h : t = { u with mem := t.mem, busLog := l }) : f t = { f u with mem := (f t).mem, busLog := l } := by
  have e := hf u t.mem l
  rw [← h, ← hf.memMap_eq u] at e
  rw [hf.mem_eq t]
  exact e

/-- A store and then an update of registers: what the update and then the store would leave. -/
theorem TookByte.update {u t : State} {a : Word} {v : Byte} {f : State → State} (h : TookByte u t a v)
    (hf : SparesMemory f) : TookByte (f u) (f t) a v := by
  obtain ⟨rest, wf, bytes⟩ := h
  refine ⟨?_, by rw [hf.mem_eq]; exact wf, fun b => ?_⟩
  · rw [hf.busLog_eq]; exact hf.eq_of_eq rest
  · rw [hf.byteAt_eq, hf.byteAt_eq, hf.memMap_eq]; exact bytes b

/-- The same for two stores. -/
theorem TookTwo.update {u t : State} {a a' : Word} {v w : Byte} {f : State → State} (h : TookTwo u t a v a' w)
    (hf : SparesMemory f) : TookTwo (f u) (f t) a v a' w := by
  obtain ⟨rest, wf, bytes⟩ := h
  refine ⟨?_, by rw [hf.mem_eq]; exact wf, fun b => ?_⟩
  · rw [hf.busLog_eq]; exact hf.eq_of_eq rest
  · rw [hf.byteAt_eq, hf.byteAt_eq, hf.memMap_eq]; exact bytes b

/-! ### Exchanges with the stack (R194 to R196) -/

/-- EX (SP),HL: the exchange of the word on the stack, then H and L take what was read. -/
theorem exec_exMemSpHl (s : State) :
    exec .exMemSpHl s =
      .next { s.replaceTop s.hl with
        regs := { s.regs with h := (s.afterRead8 s.sp).read8 (s.sp + 1#16), l := s.read8 s.sp } } := by
  have e : exec .exMemSpHl s = .next ((s.replaceTop s.hl).setHl s.top16) := rfl
  rw [e, State.top16_eq, State.setHl_append, State.replaceTop_regs]

theorem exec_exMemSpIx (s : State) : exec .exMemSpIx s = .next { s.replaceTop s.ix with ix := s.top16 } := rfl

theorem exec_exMemSpIy (s : State) : exec .exMemSpIy s = .next { s.replaceTop s.iy with iy := s.top16 } := rfl

/-- An instruction that exchanges the word on the stack for v and then updates registers. -/
theorem tookTwo_of_exec_eq_replaceTop {s : State} {i : Instr} {v : Word} {f : State → State} (hm : s.mem.wf = true)
    (hu : s.Undisturbed) (hf : SparesMemory f) (h : exec i s = .next (f (s.replaceTop v))) :
    ∃ t, exec i s = .next t ∧ TookTwo (f (s.afterRead16 s.sp)) t (s.sp + 1#16) (highByte v) s.sp (lowByte v) :=
  ⟨_, h, (State.replaceTop_took hu v hm).update hf⟩

/-- Settles O38: each is the two reads and two writes of `replaceTop`, then the register takes the word read. -/
theorem stackExchanges : Obligations.StackExchanges := by
  intro s hm hu lo hi u
  have hl := tookTwo_of_exec_eq_replaceTop (f := fun x => { x with regs := { s.regs with h := hi, l := lo } })
    hm hu (fun _ _ _ => rfl) (exec_exMemSpHl s)
  have ix := tookTwo_of_exec_eq_replaceTop (f := fun x => { x with ix := hi ++ lo })
    hm hu (fun _ _ _ => rfl) (exec_exMemSpIx s)
  have iy := tookTwo_of_exec_eq_replaceTop (f := fun x => { x with iy := hi ++ lo })
    hm hu (fun _ _ _ => rfl) (exec_exMemSpIy s)
  rw [State.hl, highByte_append, lowByte_append] at hl
  exact ⟨hl, ix, iy⟩

/-! ### Counting down and moving (R197 to R205) -/

theorem sub_one_eq_zero_iff (v : Word) : v - 1#16 = 0#16 ↔ v = 1#16 := sub_eq_zero

theorem sub_one_bne_zero (v : Word) : (v - 1#16 != 0#16) = decide (v ≠ 1#16) := by
  rw [Bool.eq_iff_iff, bne_iff_ne, decide_eq_true_iff, Ne, sub_one_eq_zero_iff]

theorem moved_up (v : Word) : moved true v = v + 1#16 := rfl

theorem moved_down (v : Word) : moved false v = v + -1#16 := BitVec.sub_eq_add_neg v 1#16

/-- A pass of a repeating instruction moves PC back unless it was the last one (R205). -/
theorem State.ite_repeatInstr (x : State) {c done : Prop} [Decidable c] [Decidable done] (h : c ↔ done) :
    (if c then x else x.repeatInstr) = { x with pc := if done then x.pc else x.pc - 2#16 } := by
  by_cases hc : c
  · rw [if_pos hc, if_pos (h.1 hc)]
  · rw [if_neg hc, if_neg (hc ∘ h.2)]; rfl

/-! ### Block transfers (R197 to R200) -/

/-- What a block transfer that begins in s does to the registers of x, PC included. -/
def State.transferRegs (s : State) (δ pc : Word) (x : State) : State :=
  State.setFlags { ((x.setDe (s.de + δ)).setHl (s.hl + δ)).setBc (s.bc - 1#16) with pc := pc }
    { s.regs.f with h := false, n := false, pv := decide (s.bc ≠ 1#16) }

theorem State.transferRegs_sparesMemory (s : State) (δ pc : Word) : SparesMemory (s.transferRegs δ pc) :=
  fun _ _ _ => rfl

section Transfer
variable (s : State)

theorem State.transferRegs_bc (δ pc : Word) (x : State) : (s.transferRegs δ pc x).bc = s.bc - 1#16 :=
  highByte_append_lowByte _

theorem State.transferRegs_de (δ pc : Word) (x : State) : (s.transferRegs δ pc x).de = s.de + δ :=
  highByte_append_lowByte _

theorem State.transferRegs_hl (δ pc : Word) (x : State) : (s.transferRegs δ pc x).hl = s.hl + δ :=
  highByte_append_lowByte _

/-- The read and the write of a block transfer. -/
def State.afterCopy : State := (s.afterRead8 s.hl).write8 s.de (s.read8 s.hl)

theorem State.transferStep_eq {up : Bool} {δ : Word} (h : ∀ v, moved up v = v + δ) :
    s.transferStep up = s.transferRegs δ s.pc s.afterCopy := by
  have pc : s.afterCopy.pc = s.pc := by simp [State.afterCopy]
  rw [← pc]
  unfold State.transferStep State.transferRegs transferFlags
  rw [h, h, sub_one_bne_zero]
  rfl

theorem State.repeatTransfer_transferStep {up : Bool} {δ : Word} (h : ∀ v, moved up v = v + δ) :
    (s.transferStep up).repeatTransfer =
      s.transferRegs δ (if s.bc = 1#16 then s.pc else s.pc - 2#16) s.afterCopy := by
  rw [State.repeatTransfer, State.ite_repeatInstr (done := s.bc = 1#16), State.transferStep_eq s h]
  · rfl
  · rw [State.transferStep_bc, sub_one_eq_zero_iff]

theorem exec_ldi : exec .ldi s = .next (s.transferRegs 1#16 s.pc s.afterCopy) :=
  congrArg Host.Outcome.next (s.transferStep_eq moved_up)

theorem exec_ldd : exec .ldd s = .next (s.transferRegs (-1#16) s.pc s.afterCopy) :=
  congrArg Host.Outcome.next (s.transferStep_eq moved_down)

theorem exec_ldir :
    exec .ldir s = .next (s.transferRegs 1#16 (if s.bc = 1#16 then s.pc else s.pc - 2#16) s.afterCopy) :=
  congrArg Host.Outcome.next (s.repeatTransfer_transferStep moved_up)

theorem exec_lddr :
    exec .lddr s = .next (s.transferRegs (-1#16) (if s.bc = 1#16 then s.pc else s.pc - 2#16) s.afterCopy) :=
  congrArg Host.Outcome.next (s.repeatTransfer_transferStep moved_down)

variable {s}

theorem State.afterCopy_took (hm : s.mem.wf = true) (hu : s.Undisturbed) :
    TookByte (s.afterRead8 s.hl) s.afterCopy s.de (s.read8 s.hl) :=
  State.write8_took (hu.afterRead8 s.hl) _ _ (State.afterRead8_wf s s.hl hm)

/-- An instruction that copies a byte from HL to DE and then updates registers. -/
theorem tookByte_of_exec_eq_transferRegs {i : Instr} {δ pc : Word} (hm : s.mem.wf = true) (hu : s.Undisturbed)
    (h : exec i s = .next (s.transferRegs δ pc s.afterCopy)) :
    ∃ t, exec i s = .next t ∧ TookByte (s.transferRegs δ pc (s.afterRead8 s.hl)) t s.de (s.read8 s.hl) :=
  ⟨_, h, (State.afterCopy_took hm hu).update (s.transferRegs_sparesMemory δ pc)⟩

end Transfer

/-- Settles O39: each copies one byte and updates the registers; the repeating ones also PC. -/
theorem blockTransfers : Obligations.BlockTransfers := by
  intro s hm hu moved pc'
  have transfer {i : Instr} {δ pc : Word} := tookByte_of_exec_eq_transferRegs (i := i) (δ := δ) (pc := pc) hm hu
  exact ⟨transfer (exec_ldi s), transfer (exec_ldd s), transfer (exec_ldir s), transfer (exec_lddr s)⟩

/-! ### Block searches (R201 to R204) -/

/-- The difference a search forms (R217). -/
theorem sub8_fst (a m : Byte) : (sub8 a m false).1 = a - m := by
  apply BitVec.eq_of_toNat_eq
  simp [sub8]
  omega

theorem searchFlags_eq (a m : Byte) (bc : Word) (f : Flags) :
    searchFlags a m (bc - 1#16) f =
      { s := (a - m).msb, z := decide (a = m), h := decide (a.toNat % 16 < m.toNat % 16), pv := decide (bc ≠ 1#16)
        n := true, c := f.c } := by
  have s : (sub8 a m false).2.s = (a - m).msb := by
    rw [← sub8_fst, BitVec.msb_eq_getLsbD_last]; rfl
  have z : (sub8 a m false).2.z = decide (a = m) := by
    have e : (sub8 a m false).2.z = ((sub8 a m false).1 == 0#8) := rfl
    rw [e, sub8_fst, Bool.eq_iff_iff, beq_iff_eq, decide_eq_true_iff]
    exact sub_eq_zero
  have h : (sub8 a m false).2.h = decide (a.toNat % 16 < m.toNat % 16) := by
    have e : (sub8 a m false).2.h = decide ((lowDigit a : Int) - lowDigit m - 0 < 0) := rfl
    rw [e, Bool.eq_iff_iff, decide_eq_true_iff, decide_eq_true_iff, lowDigit, lowDigit]
    omega
  rw [searchFlags, s, z, h, sub_one_bne_zero]
  rfl

section Search
variable (s : State)

/-- What a block search leaves (R201, R203). -/
def State.searched (δ pc : Word) : State :=
  State.setFlags { ((s.afterRead8 s.hl).setHl (s.hl + δ)).setBc (s.bc - 1#16) with pc := pc }
    (searchFlags s.regs.a (s.read8 s.hl) (s.bc - 1#16) s.regs.f)

theorem State.searchStep_eq {up : Bool} {δ : Word} (h : ∀ v, moved up v = v + δ) :
    s.searchStep up = s.searched δ s.pc := by
  have pc : (s.afterRead8 s.hl).pc = s.pc := State.afterRead8_pc s s.hl
  unfold State.searchStep State.searched
  rw [h, ← pc]
  rfl

theorem State.repeatSearch_searchStep {up : Bool} {δ : Word} (h : ∀ v, moved up v = v + δ) :
    (s.searchStep up).repeatSearch =
      s.searched δ (if s.bc = 1#16 ∨ s.regs.a = s.read8 s.hl then s.pc else s.pc - 2#16) := by
  have z : (s.searchStep up).regs.f.z = decide (s.regs.a = s.read8 s.hl) := by
    have e : (s.searchStep up).regs.f = searchFlags s.regs.a (s.read8 s.hl) (s.bc - 1#16) s.regs.f := rfl
    rw [e, searchFlags_eq]
  rw [State.repeatSearch, State.ite_repeatInstr (done := s.bc = 1#16 ∨ s.regs.a = s.read8 s.hl),
    State.searchStep_eq s h]
  · rfl
  · rw [State.searchStep_bc, sub_one_eq_zero_iff, z, decide_eq_true_iff]

end Search

/-- Settles O41: each is one comparison, whose flags are those of A - (HL) but for P/V and C; the repeating ones also
update PC. -/
theorem blockSearches : Obligations.BlockSearches := by
  intro s m moved pc'
  have next (δ pc : Word) : s.searched δ pc = moved δ pc := congrArg (State.setFlags _) (searchFlags_eq _ _ _ _)
  exact ⟨congrArg Host.Outcome.next ((s.searchStep_eq moved_up).trans (next _ _)),
    congrArg Host.Outcome.next ((s.searchStep_eq moved_down).trans (next _ _)),
    congrArg Host.Outcome.next ((s.repeatSearch_searchStep moved_up).trans (next _ _)),
    congrArg Host.Outcome.next ((s.repeatSearch_searchStep moved_down).trans (next _ _))⟩

end Sys2Proof.Machine

/-! ## LDIR placed in memory and left to run: O40 -/

namespace Sys2Proof.Machine

/-! ### A machine that nothing from outside reaches -/

/-- The CPU runs, has 64K of RAM for itself, and nothing from outside happens: no input is to come, there is no device,
and no other bus master. -/
structure State.Alone (s : State) : Prop where
  wf : s.mem.wf = true
  ram : s.memMap = []
  inputs : s.inputs = []
  devices : s.devices = []
  undisturbed : s.Undisturbed
  busGranted : s.busGranted = false
  running : s.halted = false
  nmiPending : s.nmiPending = false

namespace State.Alone
variable {s : State}

theorem isRam (h : s.Alone) (a : Word) : kindAt s.memMap a = none := by rw [h.ram]; rfl

theorem nextInput (h : s.Alone) : s.nextInput = BoundaryInput.quiet := by rw [State.nextInput, h.inputs]

theorem elapse (h : s.Alone) (n : Nat) : (s.elapse n).Alone :=
  { h with devices := congrArg (List.map (Device.clock n)) h.devices }

theorem fetched (h : s.Alone) (i : Instr) : (s.fetched i).Alone :=
  { h with devices := congrArg (List.map Device.m1) h.devices }

theorem arrive (h : s.Alone) : s.arrive BoundaryInput.quiet = s := by
  obtain ⟨-, -, inputs, devices, -, -, -, nmi⟩ := h
  cases s
  simp_all [State.arrive, State.elapse, State.deviceEvents, BoundaryInput.quiet]

/-- With no device on the chain and INT quiet, no interrupt asks (R516, R520). -/
theorem intActive (h : s.Alone) : s.intActive BoundaryInput.quiet = false := by
  rw [State.intActive, State.chainRequests, h.devices]
  rfl

/-- At its boundaries nothing happens, but that an inhibition ends (R488, R590). -/
theorem boundary (h : s.Alone) : s.boundary = .next { s with noSample := false } := by
  have keepsBus : { s with busGranted := false } = s := by rw [← h.busGranted]
  rw [State.boundary_eq_sample (by rw [h.nextInput]; rfl) (by rw [h.nextInput]; rfl), h.nextInput, h.arrive, keepsBus]
  exact State.sampleInterrupts_none (.inr ⟨h.nmiPending, .inr h.intActive⟩)

/-- A step is the instruction at PC, and no more (R90, R484). -/
theorem step {i : Instr} {v : State} (h : s.Alone) (hw : WellFormed i = true) (hi : s.HoldsAtPc i)
    (he : exec i (s.fetched i) = .next v) (hv : v.Alone) :
    step s = .next { v.elapse (instrCost i (s.fetched i)) with noSample := false } := by
  have hf := State.fetch_eq_fetched hw h.undisturbed hi
  rw [step_of_fetch_unabandoned h.busGranted h.running (by rw [h.nextInput]; rfl) hf he, (hv.elapse _).boundary]

end State.Alone

/-! ### One step of LDIR (R198, R205) -/

/-- Alone, LDIR moves a byte from HL to DE; besides, it changes only the registers of a transfer, and the log. -/
theorem exec_ldir_alone {s : State} (h : s.Alone) :
    ∃ v, exec .ldir s = .next v ∧ v.Alone ∧
      v = { s.transferRegs 1#16 (if s.bc = 1#16 then s.pc else s.pc - 2#16) s with
            mem := v.mem, busLog := v.busLog } ∧
      ∀ a, v.byteAt a = if a = s.de then s.byteAt s.hl else s.byteAt a := by
  obtain ⟨v, he, rest, wf, bytes⟩ := tookByte_of_exec_eq_transferRegs h.wf h.undisturbed (exec_ldir s)
  rw [State.afterRead8_eq h.undisturbed, State.answerMem_plain (.inl (h.isRam _))] at rest bytes
  refine ⟨v, he, ?alone, by rw [congrArg State.busLog rest]; exact rest, fun a => ?byte⟩
  case alone =>
    rw [rest]
    exact { h with wf := wf }
  case byte =>
    have e : v.byteAt a = if a = s.de ∧ kindAt s.memMap s.de = none then s.read8 s.hl else s.byteAt a := bytes a
    simpa only [h.isRam, and_true, State.read8_plain (.inl (h.isRam s.hl))] using e

/-- n bytes from HL on have been copied to DE and on, the pointers are past them, and no other byte has changed. -/
structure BlockMoved (n : Nat) (s t : State) : Prop where
  bc : t.bc = s.bc - BitVec.ofNat 16 n
  de : t.de = s.de + BitVec.ofNat 16 n
  hl : t.hl = s.hl + BitVec.ofNat 16 n
  copied : ∀ k, k < n → t.byteAt (s.de + BitVec.ofNat 16 k) = s.byteAt (s.hl + BitVec.ofNat 16 k)
  kept : ∀ a, (∀ k, k < n → a ≠ s.de + BitVec.ofNat 16 k) → t.byteAt a = s.byteAt a

namespace BlockMoved
variable {n : Nat} {s t u : State}

theorem one (bc : t.bc = s.bc - 1#16) (de : t.de = s.de + 1#16) (hl : t.hl = s.hl + 1#16)
    (bytes : ∀ a, t.byteAt a = if a = s.de then s.byteAt s.hl else s.byteAt a) : BlockMoved 1 s t := by
  refine ⟨bc, de, hl, fun k hk => ?_, fun a ha => ?_⟩
  · rw [Nat.lt_one_iff.1 hk, BitVec.add_zero, BitVec.add_zero, bytes, if_pos rfl]
  · have hne : a ≠ s.de := fun e => ha 0 Nat.zero_lt_one (e.trans (BitVec.add_zero s.de).symm)
    rw [bytes, if_neg hne]

/-- The k-th address from the new DE on is the next one from the old DE on. -/
theorem de_add (h : BlockMoved 1 s u) (k : Nat) : u.de + BitVec.ofNat 16 k = s.de + BitVec.ofNat 16 (k + 1) := by
  rw [h.de, BitVec.add_assoc, one_add_ofNat]

theorem hl_add (h : BlockMoved 1 s u) (k : Nat) : u.hl + BitVec.ofNat 16 k = s.hl + BitVec.ofNat 16 (k + 1) := by
  rw [h.hl, BitVec.add_assoc, one_add_ofNat]

theorem byteAt_of_ne (h : BlockMoved 1 s u) {a : Word} (ha : s.de + BitVec.ofNat 16 0 ≠ a) :
    u.byteAt a = s.byteAt a :=
  h.kept a fun _ hk => Nat.lt_one_iff.1 hk ▸ ha.symm

/-- One byte and then n more: n + 1, if DE is no address that is still to be read. -/
theorem cons (first : BlockMoved 1 s u) (more : BlockMoved n u t) (hn : n + 1 < 65536)
    (sources : ∀ k, k < n → s.de + BitVec.ofNat 16 0 ≠ s.hl + BitVec.ofNat 16 (k + 1)) :
    BlockMoved (n + 1) s t := by
  refine ⟨?_, more.de.trans (first.de_add n), more.hl.trans (first.hl_add n), fun k hk => ?_, fun a ha => ?_⟩
  · rw [more.bc, first.bc, BitVec.sub_sub, one_add_ofNat]
  · cases k with
    | zero =>
      have notAgain : ∀ k, k < n → s.de + BitVec.ofNat 16 0 ≠ u.de + BitVec.ofNat 16 k := by
        intro k hk
        rw [first.de_add]
        bv_omega
      rw [more.kept _ notAgain, first.copied 0 Nat.zero_lt_one]
    | succ k =>
      rw [← first.de_add, more.copied k (by omega), first.hl_add, first.byteAt_of_ne (sources k (by omega))]
  · rw [more.kept a fun k hk => first.de_add k ▸ ha (k + 1) (by omega), first.kept a fun k hk => ha k (by omega)]

end BlockMoved

/-- The machine is alone, and LDIR stands at PC. -/
structure State.AtLdir (s : State) : Prop where
  alone : s.Alone
  first : s.byteAt s.pc = 0xED#8
  second : s.byteAt (s.pc + 1#16) = 0xB0#8

theorem State.AtLdir.holdsAtPc {s : State} (h : s.AtLdir) : s.HoldsAtPc .ldir := by
  refine fun k hk => ⟨.inl (h.alone.isRam _), ?_⟩
  match k, hk with
  | 0, _ => exact (congrArg s.byteAt (BitVec.add_zero s.pc)).trans h.first
  | 1, _ => exact h.second

/-- What one step of LDIR does when nothing else happens. -/
structure LdirPass (s t : State) : Prop where
  alone : t.Alone
  pc : t.pc = if s.bc = 1#16 then s.pc + 2#16 else s.pc
  pv : t.regs.f.pv = decide (s.bc ≠ 1#16)
  moved : BlockMoved 1 s t

theorem State.AtLdir.step {s : State} (h : s.AtLdir) : ∃ t, step s = .next t ∧ LdirPass s t := by
  obtain ⟨v, he, alone, rest, bytes⟩ := exec_ldir_alone (h.alone.fetched .ldir)
  refine ⟨_, h.alone.step rfl h.holdsAtPc he alone, { alone.elapse _ with }, ?pc, ?pv, ?moved⟩
  case pc =>
    have e : v.pc = if s.bc = 1#16 then s.pc + 2#16 else s.pc + 2#16 - 2#16 := congrArg State.pc rest
    rwa [BitVec.add_sub_cancel] at e
  case pv => exact congrArg (fun x => x.regs.f.pv) rest
  case moved =>
    exact .one ((congrArg State.bc rest).trans (State.transferRegs_bc ..))
      ((congrArg State.de rest).trans (State.transferRegs_de ..))
      ((congrArg State.hl rest).trans (State.transferRegs_hl ..)) bytes

/-! ### The whole block -/

/-- LDIR at PC is to copy n bytes, and overwrites neither itself nor a byte that it still has to read. -/
structure LdirReady (n : Nat) (s : State) : Prop where
  here : s.AtLdir
  bc : s.bc = BitVec.ofNat 16 n
  code : ∀ k, k < n → s.de + BitVec.ofNat 16 k ≠ s.pc ∧ s.de + BitVec.ofNat 16 k ≠ s.pc + 1#16
  sources : ∀ j k, j < k → k < n → s.de + BitVec.ofNat 16 j ≠ s.hl + BitVec.ofNat 16 k

/-- Behind a pass that was not the last one LDIR is ready to copy the rest. -/
theorem LdirReady.tail {n : Nat} {s u : State} (h : LdirReady (n + 1) s) (p : LdirPass s u) (hpc : u.pc = s.pc) :
    LdirReady n u := by
  obtain ⟨notFirst, notSecond⟩ := h.code 0 n.succ_pos
  refine ⟨⟨p.alone, ?first, ?second⟩, ?bc, fun k hk => ?code, fun j k hj hk => ?sources⟩
  case first => rw [hpc, p.moved.byteAt_of_ne notFirst, h.here.first]
  case second => rw [hpc, p.moved.byteAt_of_ne notSecond, h.here.second]
  case bc =>
    rw [p.moved.bc, h.bc, ← one_add_ofNat]
    bv_omega
  case code =>
    rw [p.moved.de_add, hpc]
    exact h.code (k + 1) (by omega)
  case sources =>
    rw [p.moved.de_add, p.moved.hl_add]
    exact h.sources (j + 1) (k + 1) (by omega) (by omega)

theorem run_succ {s u : State} (h : step s = .next u) (n : Nat) :
    Sys2Proof.core.run (n + 1) s = Sys2Proof.core.run n u := by
  have e : Sys2Proof.core.step s = .next u := h
  simp only [Host.Core.run, e]

/-- The run of LDIR, by induction on the bytes that are left: the step at which BC gets to 0 is the last one. -/
theorem run_ldir (n : Nat) (hn : n + 1 < 65536) (s : State) (h : LdirReady (n + 1) s) :
    ∃ t, Sys2Proof.core.run (n + 1) s = .next t ∧ t.pc = s.pc + 2#16 ∧ t.regs.f.pv = false ∧
      BlockMoved (n + 1) s t := by
  induction n generalizing s with
  | zero =>
    obtain ⟨t, ht, pass⟩ := h.here.step
    have last : s.bc = 1#16 := h.bc
    exact ⟨t, run_succ ht 0, by rw [pass.pc, if_pos last], by rw [pass.pv, last]; rfl, pass.moved⟩
  | succ n ih =>
    obtain ⟨u, hu, pass⟩ := h.here.step
    have more : s.bc ≠ 1#16 := by rw [h.bc]; bv_omega
    have again : u.pc = s.pc := by rw [pass.pc, if_neg more]
    obtain ⟨t, ht, pc, pv, moved⟩ := ih (by omega) u (h.tail pass again)
    have sources k (hk : k < n + 1) := h.sources 0 (k + 1) k.succ_pos (by omega)
    exact ⟨t, (run_succ hu _).trans ht, by rw [pc, again], pv, pass.moved.cons moved hn sources⟩

/-- Settles O40, by induction on the number of bytes: one step copies one, and leaves LDIR as it has to be for the
rest. -/
theorem ldirCopiesABlock : Obligations.LdirCopiesABlock := by
  intro n s wf ram inputs devices undisturbed busGranted running nmiPending pos hn bc first second code sources
  obtain ⟨m, rfl⟩ : ∃ m, n = m + 1 := ⟨n - 1, by omega⟩
  have alone : s.Alone := ⟨wf, ram, inputs, devices, undisturbed, busGranted, running, nmiPending⟩
  obtain ⟨t, run, pc, pv, moved⟩ := run_ldir m hn s ⟨⟨alone, first, second⟩, bc, code, sources⟩
  have zero : t.bc = 0#16 := by rw [moved.bc, bc, BitVec.sub_self]
  exact ⟨t, run, pc, zero, moved.de, moved.hl, pv, moved.copied, moved.kept⟩

end Sys2Proof.Machine

/-! ## The 8-bit arithmetic and logical group: O43, O22, O23, O42 -/

namespace Sys2Proof.Machine

/-! ### INC and DEC (43_alu8.md R260 to R267) -/

/-- An instruction that reads a byte, and writes it back changed and with its flags (R66). -/
theorem tookByte_of_exec_eq_writeF {s : State} {i : Instr} {a : Word} {p : Byte × Flags} (hm : s.mem.wf = true)
    (hu : s.Undisturbed) (h : exec i s = .next ((s.afterRead8 a).writeF a p)) :
    ∃ t, exec i s = .next t ∧ TookByte ((s.afterRead8 a).setFlags p.2) t a p.1 :=
  ⟨_, h, State.writeF_took (hu.afterRead8 a) a p (State.afterRead8_wf s a hm)⟩

/-- Settles O43: each is inc8 or dec8 of what was read, its result to the location and its flags to F. -/
theorem incrementAndDecrement : Obligations.IncrementAndDecrement := by
  refine ⟨fun s r => ⟨rfl, rfl⟩, fun s hm hu => ?memory⟩
  have inc (i : Instr) (a : Word) (h : exec i s = .next (s.incAt a)) := tookByte_of_exec_eq_writeF hm hu h
  have dec (i : Instr) (a : Word) (h : exec i s = .next (s.decAt a)) := tookByte_of_exec_eq_writeF hm hu h
  exact ⟨⟨inc _ _ rfl, fun _ => inc _ _ rfl, fun _ => inc _ _ rfl⟩,
    dec _ _ rfl, fun _ => dec _ _ rfl, fun _ => dec _ _ rfl⟩

/-! ### Bytes as numbers, unsigned and signed -/

theorem getLsbD_seven (v : Byte) : v.getLsbD 7 = v.msb := (BitVec.msb_eq_getLsbD_last v).symm

theorem msb_eq_decide_toNat (v : Byte) : v.msb = decide (128 ≤ v.toNat) := BitVec.msb_eq_decide v

theorem toInt_eq_ite_toNat (v : Byte) : v.toInt = if 128 ≤ v.toNat then (v.toNat : Int) - 256 else v.toNat := by
  have e : v.toInt = if v.msb = true then (v.toNat : Int) - 256 else v.toNat := BitVec.toInt_eq_msb_cond v
  rw [e, msb_eq_decide_toNat]
  simp only [decide_eq_true_iff]

theorem beq_zero_iff_toNat (v : Byte) : (v == 0#8) = true ↔ v.toNat = 0 := by
  rw [beq_iff_eq, ← BitVec.toNat_inj]
  rfl

/-! ### add8 and sub8 (R216, R217) -/

section Sums
variable (a b : Byte) (c : Bool)

theorem add8_toNat : (add8 a b c).1.toNat = (a.toNat + b.toNat + c.toNat) % 256 := BitVec.toNat_ofNat _ _

theorem add8_s : (add8 a b c).2.s = (add8 a b c).1.msb := getLsbD_seven _

theorem add8_z_iff : (add8 a b c).2.z = true ↔ (add8 a b c).1.toNat = 0 := beq_zero_iff_toNat _

theorem add8_h_iff : (add8 a b c).2.h = true ↔ a.toNat % 16 + b.toNat % 16 + c.toNat > 15 := decide_eq_true_iff

theorem add8_pv_iff_msb : (add8 a b c).2.pv = true ↔ a.msb = b.msb ∧ (add8 a b c).1.msb ≠ a.msb := by
  simp only [← getLsbD_seven]
  exact Bool.and_eq_true_iff.trans (and_congr beq_iff_eq bne_iff_ne)

/-- The signs tell the overflow of the signed sum. -/
theorem add8_pv_iff_toInt :
    (add8 a b c).2.pv = true ↔ a.toInt + b.toInt + c.toNat < -128 ∨ a.toInt + b.toInt + c.toNat > 127 := by
  have res := add8_toNat a b c
  have carry := c.toNat_le
  simp only [add8_pv_iff_msb, msb_eq_decide_toNat, toInt_eq_ite_toNat, decide_eq_decide, ne_eq]
  omega

theorem add8_c_iff : (add8 a b c).2.c = true ↔ a.toNat + b.toNat + c.toNat > 255 := decide_eq_true_iff

theorem sub8_toNat : ((sub8 a b c).1.toNat : Int) = (a.toNat - b.toNat - c.toNat : Int) % 256 := by
  have e : (sub8 a b c).1.toNat = ((a.toNat - b.toNat - c.toNat : Int) % 256).toNat := BitVec.toNat_ofInt _
  omega

theorem sub8_s : (sub8 a b c).2.s = (sub8 a b c).1.msb := getLsbD_seven _

theorem sub8_z_iff : (sub8 a b c).2.z = true ↔ (sub8 a b c).1.toNat = 0 := beq_zero_iff_toNat _

/-- H is the borrow from bit 4. -/
theorem sub8_h_iff : (sub8 a b c).2.h = true ↔ b.toNat % 16 + c.toNat > a.toNat % 16 := by
  have e : (sub8 a b c).2.h = true ↔ ((lowDigit a : Int) - lowDigit b - c.toNat < 0) := decide_eq_true_iff
  rw [e, lowDigit, lowDigit]
  omega

theorem sub8_pv_iff_msb : (sub8 a b c).2.pv = true ↔ a.msb ≠ b.msb ∧ (sub8 a b c).1.msb ≠ a.msb := by
  simp only [← getLsbD_seven]
  exact Bool.and_eq_true_iff.trans (and_congr bne_iff_ne bne_iff_ne)

/-- The signs tell the overflow of the signed difference. -/
theorem sub8_pv_iff_toInt :
    (sub8 a b c).2.pv = true ↔ a.toInt - b.toInt - c.toNat < -128 ∨ a.toInt - b.toInt - c.toNat > 127 := by
  have res := sub8_toNat a b c
  have borrow := c.toNat_le
  simp only [sub8_pv_iff_msb, msb_eq_decide_toNat, toInt_eq_ite_toNat, decide_eq_decide, ne_eq]
  omega

/-- C is the borrow. -/
theorem sub8_c_iff : (sub8 a b c).2.c = true ↔ b.toNat + c.toNat > a.toNat := by
  have e : (sub8 a b c).2.c = true ↔ ((a.toNat - b.toNat - c.toNat : Int) < 0) := decide_eq_true_iff
  rw [e]
  omega

end Sums

/-- Settles O22, flag by flag. -/
theorem additionAndSubtractionFunctions : Obligations.AdditionAndSubtractionFunctions :=
  ⟨fun a b c => ⟨add8_toNat a b c, add8_s a b c, add8_z_iff a b c, add8_h_iff a b c, add8_pv_iff_msb a b c,
      add8_pv_iff_toInt a b c, rfl, add8_c_iff a b c⟩,
    fun a b c => ⟨sub8_toNat a b c, sub8_s a b c, sub8_z_iff a b c, sub8_h_iff a b c, sub8_pv_iff_msb a b c,
      sub8_pv_iff_toInt a b c, rfl, sub8_c_iff a b c⟩⟩

/-! ### logic, inc8 and dec8 (R218, R219) -/

theorem ones_eq_countP (v : Byte) : ones v = (List.range 8).countP (fun k => v.getLsbD k) := by
  have indices : List.range 8 = [0, 1, 2, 3, 4, 5, 6, 7] := rfl
  simp only [ones, indices, Bool.toNat, Bool.cond_eq_ite, List.countP_cons, List.countP_nil]
  omega

theorem parity_iff (v : Byte) : parity v = true ↔ ((List.range 8).countP (fun k => v.getLsbD k)) % 2 = 0 := by
  rw [parity, beq_iff_eq, ones_eq_countP]

section Counts
variable (v : Byte) (f : Flags)

theorem inc8_toNat : (inc8 v f).1.toNat = (v.toNat + 1) % 256 := BitVec.toNat_add v 1#8

theorem inc8_h_iff : (inc8 v f).2.h = true ↔ v.toNat % 16 = 15 := beq_iff_eq

theorem inc8_pv_iff : (inc8 v f).2.pv = true ↔ v = 0x7F#8 := beq_iff_eq

theorem dec8_toNat : (dec8 v f).1.toNat = (v.toNat + 255) % 256 := by
  rw [Nat.add_comm]
  exact BitVec.toNat_sub v 1#8

theorem dec8_h_iff : (dec8 v f).2.h = true ↔ v.toNat % 16 = 0 := beq_iff_eq

theorem dec8_pv_iff : (dec8 v f).2.pv = true ↔ v = 0x80#8 := beq_iff_eq

/-- The only signed byte that 1 more takes out of range is 7FH. -/
theorem add8_one_pv_iff : (add8 v 1#8 false).2.pv = true ↔ v = 0x7F#8 := by
  have e : (add8 v 1#8 false).2.pv = true ↔ v.toInt + 1 + 0 < -128 ∨ v.toInt + 1 + 0 > 127 :=
    add8_pv_iff_toInt v 1#8 false
  have max : v = 0x7F#8 ↔ v.toInt = 127 := BitVec.toInt_inj.symm
  have least : -128 ≤ v.toInt := BitVec.le_toInt v
  have most : v.toInt < 128 := BitVec.toInt_lt
  rw [e, max]
  omega

/-- The only signed byte that 1 less takes out of range is 80H. -/
theorem sub8_one_pv_iff : (sub8 v 1#8 false).2.pv = true ↔ v = 0x80#8 := by
  have e : (sub8 v 1#8 false).2.pv = true ↔ v.toInt - 1 - 0 < -128 ∨ v.toInt - 1 - 0 > 127 :=
    sub8_pv_iff_toInt v 1#8 false
  have min : v = 0x80#8 ↔ v.toInt = -128 := BitVec.toInt_inj.symm
  have least : -128 ≤ v.toInt := BitVec.le_toInt v
  have most : v.toInt < 128 := BitVec.toInt_lt
  rw [e, min]
  omega

theorem inc8_eq_add8 : inc8 v f = ((add8 v 1#8 false).1, { (add8 v 1#8 false).2 with c := f.c }) := by
  have res : (inc8 v f).1 = (add8 v 1#8 false).1 := BitVec.eq_of_toNat_eq (inc8_toNat v f)
  have s : (inc8 v f).2.s = (add8 v 1#8 false).2.s := congrArg (BitVec.getLsbD · 7) res
  have z : (inc8 v f).2.z = (add8 v 1#8 false).2.z := congrArg (· == 0#8) res
  have h : (inc8 v f).2.h = (add8 v 1#8 false).2.h := by
    have e : (add8 v 1#8 false).2.h = true ↔ v.toNat % 16 + 1 + 0 > 15 := add8_h_iff v 1#8 false
    rw [Bool.eq_iff_iff, inc8_h_iff, e]
    omega
  have pv : (inc8 v f).2.pv = (add8 v 1#8 false).2.pv := by
    rw [Bool.eq_iff_iff, inc8_pv_iff, add8_one_pv_iff]
  simp only [← res, ← s, ← z, ← h, ← pv]
  rfl

theorem dec8_eq_sub8 : dec8 v f = ((sub8 v 1#8 false).1, { (sub8 v 1#8 false).2 with c := f.c }) := by
  have res : (dec8 v f).1 = (sub8 v 1#8 false).1 := (sub8_fst v 1#8).symm
  have s : (dec8 v f).2.s = (sub8 v 1#8 false).2.s := congrArg (BitVec.getLsbD · 7) res
  have z : (dec8 v f).2.z = (sub8 v 1#8 false).2.z := congrArg (· == 0#8) res
  have h : (dec8 v f).2.h = (sub8 v 1#8 false).2.h := by
    have e : (sub8 v 1#8 false).2.h = true ↔ 1 + 0 > v.toNat % 16 := sub8_h_iff v 1#8 false
    rw [Bool.eq_iff_iff, dec8_h_iff, e]
    omega
  have pv : (dec8 v f).2.pv = (sub8 v 1#8 false).2.pv := by
    rw [Bool.eq_iff_iff, dec8_pv_iff, sub8_one_pv_iff]
  simp only [← res, ← s, ← z, ← h, ← pv]
  rfl

end Counts

/-- Settles O23, flag by flag. -/
theorem logicAndIncrementFunctions : Obligations.LogicAndIncrementFunctions :=
  ⟨fun v _ => ⟨rfl, getLsbD_seven v, beq_zero_iff_toNat v, rfl, rfl, rfl, rfl⟩, parity_iff, fun v f =>
    ⟨⟨inc8_toNat v f, getLsbD_seven _, beq_zero_iff_toNat _, inc8_h_iff v f, inc8_pv_iff v f, rfl, rfl⟩,
      ⟨dec8_toNat v f, getLsbD_seven _, beq_zero_iff_toNat _, dec8_h_iff v f, dec8_pv_iff v f, rfl, rfl⟩,
      inc8_eq_add8 v f, dec8_eq_sub8 v f⟩⟩

/-! ### The accumulator operations (R215, R220 to R259) -/

/-- The read of an operand touches no register, so that behind it the operation finds the registers of s. -/
theorem OnEveryOperand.at_start {s : State} {reg : Reg8 → Instr} {imm ix iy : Byte → Instr} {hl : Instr}
    {op : Bank → State → Byte → State} (h : OnEveryOperand s reg imm hl ix iy fun u => op u.regs u) :
    OnEveryOperand s reg imm hl ix iy (op s.regs) := by
  simpa only [OnEveryOperand, State.afterRead8_regs] using h

/-- Settles O42: on each form the operation, of A and the value read, goes to A and F; with CP to F. -/
theorem accumulatorOperations : Obligations.AccumulatorOperations := by
  intro s a c into
  have toAF (f : Bank → Byte → Byte × Flags) {reg : Reg8 → Instr} {imm ix iy : Byte → Instr} {hl : Instr} :
      OnEveryOperand s reg imm hl ix iy (fun u v => u.setAF (f u.regs v)) →
        OnEveryOperand s reg imm hl ix iy fun u v => into u (f s.regs v) :=
    OnEveryOperand.at_start (op := fun k u v => u.setAF (f k v))
  refine ⟨toAF (fun k v => add8 k.a v false) ?add, toAF (fun k v => add8 k.a v k.f.c) ?adc,
    toAF (fun k v => sub8 k.a v false) ?sub, toAF (fun k v => sub8 k.a v k.f.c) ?sbc,
    toAF (fun k v => logic8 (k.a &&& v) true) ?and, toAF (fun k v => logic8 (k.a ||| v) false) ?or,
    toAF (fun k v => logic8 (k.a ^^^ v) false) ?xor,
    OnEveryOperand.at_start (op := fun k u v => u.setFlags (sub8 k.a v false).2) ?cp⟩
  all_goals exact ⟨fun _ => rfl, fun _ => rfl, rfl, fun _ => rfl, fun _ => rfl⟩

end Sys2Proof.Machine

/-! ## The general-purpose arithmetic and CPU control groups: O27, O44, O45 -/

namespace Sys2Proof.Machine

/-! ### DAA (44_general_cpu_control.md R290) -/

section DaaEquations
variable (a : Byte) (f : Flags)

theorem daaCorrection_eq : daaCorrection a f =
    (if f.h = true ∨ a.toNat % 16 > 9 then 0x06#8 else 0x00#8)
      ||| (if f.c = true ∨ a.toNat > 0x99 then 0x60#8 else 0x00#8) := by
  simp only [daaCorrection, Bool.or_eq_true, decide_eq_true_iff]
  rfl

/-- The two corrections share no bit, so that their union is their sum. -/
theorem daaCorrection_toNat : (daaCorrection a f).toNat =
    (if f.h = true ∨ a.toNat % 16 > 9 then 6 else 0) + (if f.c = true ∨ a.toNat > 0x99 then 0x60 else 0) := by
  rw [daaCorrection_eq]
  split <;> split <;> rfl

theorem daa8_fst : (daa8 a f).1 = if f.n = true then a - daaCorrection a f else a + daaCorrection a f := rfl

theorem daa8_fst_of_n (h : f.n = true) : (daa8 a f).1 = a - daaCorrection a f := by rw [daa8_fst, if_pos h]

theorem daa8_fst_of_not_n (h : f.n = false) : (daa8 a f).1 = a + daaCorrection a f := by
  rw [daa8_fst, if_neg (Bool.eq_false_iff.mp h)]

theorem daa8_h : (daa8 a f).2.h =
    if f.n = true then decide (f.h = true ∧ a.toNat % 16 < 6) else decide (a.toNat % 16 > 9) := by
  rw [Bool.decide_and, Bool.decide_eq_true]
  rfl

theorem daa8_c : (daa8 a f).2.c = decide (f.c = true ∨ a.toNat > 0x99) := by
  rw [Bool.decide_or, Bool.decide_eq_true]
  rfl

theorem daa8_snd : (daa8 a f).2 =
    { s := (daa8 a f).1.msb, z := decide ((daa8 a f).1 = 0#8)
      h := if f.n = true then decide (f.h = true ∧ a.toNat % 16 < 6) else decide (a.toNat % 16 > 9)
      pv := parity (daa8 a f).1, n := f.n, c := decide (f.c = true ∨ a.toNat > 0x99) } := by
  rw [← getLsbD_seven, ← daa8_h, ← daa8_c]
  rfl

end DaaEquations

/-! ### DAA after a sum or a difference of packed BCD bytes (R290) -/

/-- The byte with the two decimal digits of n stands for n. -/
theorem isBcd_and_bcdValue_of_digits {v : Byte} {n : Nat} (hn : n < 100) (hv : v.toNat = 16 * (n / 10) + n % 10) :
    isBcd v ∧ bcdValue v = n := by
  simp only [isBcd, bcdValue]
  omega

theorem bcdValue_le {v : Byte} (h : isBcd v) : bcdValue v ≤ 99 := by
  simp only [isBcd, bcdValue] at *
  omega

section PackedBcd
variable {x y : Byte} {c : Bool} (hx : isBcd x) (hy : isBcd y)
include hx hy

theorem daa8_add8_c_iff :
    (daa8 (add8 x y c).1 (add8 x y c).2).2.c = true ↔ bcdValue x + bcdValue y + c.toNat ≥ 100 := by
  have carry := c.toNat_le
  rw [daa8_c, decide_eq_true_iff, add8_c_iff, add8_toNat]
  simp only [isBcd, bcdValue] at *
  omega

/-- 6 for each carry out of the low decimal digit, 60H for each out of both digits. -/
theorem daaCorrection_add8 : (daaCorrection (add8 x y c).1 (add8 x y c).2).toNat =
    6 * ((x.toNat % 16 + y.toNat % 16 + c.toNat) / 10) + 0x60 * ((bcdValue x + bcdValue y + c.toNat) / 100) := by
  have carry := c.toNat_le
  have low : (add8 x y c).2.h = true ∨ (add8 x y c).1.toNat % 16 > 9 ↔
      x.toNat % 16 + y.toNat % 16 + c.toNat ≥ 10 := by
    rw [add8_h_iff, add8_toNat]
    omega
  have high := daa8_add8_c_iff (c := c) hx hy
  rw [daa8_c, decide_eq_true_iff] at high
  have digitsX : x.toNat % 16 ≤ 9 ∧ bcdValue x ≤ 99 := ⟨hx.2, bcdValue_le hx⟩
  have digitsY : y.toNat % 16 ≤ 9 ∧ bcdValue y ≤ 99 := ⟨hy.2, bcdValue_le hy⟩
  simp only [daaCorrection_toNat, low, high]
  split <;> split <;> omega

theorem daa8_add8_toNat {n : Nat} (hn : n = (bcdValue x + bcdValue y + c.toNat) % 100) :
    (daa8 (add8 x y c).1 (add8 x y c).2).1.toNat = 16 * (n / 10) + n % 10 := by
  have carry := c.toNat_le
  rw [daa8_fst_of_not_n _ _ rfl, BitVec.toNat_add, daaCorrection_add8 hx hy, add8_toNat]
  simp only [isBcd, bcdValue] at *
  omega

theorem daa8_sub8_c_iff :
    (daa8 (sub8 x y c).1 (sub8 x y c).2).2.c = true ↔ bcdValue x < bcdValue y + c.toNat := by
  have borrow := c.toNat_le
  have order : bcdValue x < bcdValue y + c.toNat ↔ y.toNat + c.toNat > x.toNat := by
    simp only [isBcd, bcdValue] at *
    omega
  have noBorrow (h : ¬ y.toNat + c.toNat > x.toNat) : ¬ (sub8 x y c).1.toNat > 0x99 := by
    have diff := sub8_toNat x y c
    simp only [isBcd] at hx
    omega
  rw [daa8_c, decide_eq_true_iff, sub8_c_iff, order]
  exact or_iff_left_of_imp fun high => by_contra fun h => noBorrow h high

/-- 6 and 60H for each decimal borrow; the quotient of a negative difference is -1. -/
theorem daaCorrection_sub8 : ((daaCorrection (sub8 x y c).1 (sub8 x y c).2).toNat : Int) =
    -(6 * (((x.toNat % 16 : Nat) - (y.toNat % 16 : Nat) - c.toNat : Int) / 10)
      + 0x60 * ((bcdValue x - bcdValue y - c.toNat : Int) / 100)) := by
  have borrow := c.toNat_le
  have low : (sub8 x y c).2.h = true ∨ (sub8 x y c).1.toNat % 16 > 9 ↔ x.toNat % 16 < y.toNat % 16 + c.toNat := by
    have diff := sub8_toNat x y c
    rw [sub8_h_iff]
    simp only [isBcd] at *
    omega
  have high := daa8_sub8_c_iff (c := c) hx hy
  rw [daa8_c, decide_eq_true_iff] at high
  have digitsX : x.toNat % 16 ≤ 9 ∧ bcdValue x ≤ 99 := ⟨hx.2, bcdValue_le hx⟩
  have digitsY : y.toNat % 16 ≤ 9 ∧ bcdValue y ≤ 99 := ⟨hy.2, bcdValue_le hy⟩
  simp only [daaCorrection_toNat, low, high]
  split <;> split <;> omega

theorem daa8_sub8_toNat {n : Nat} (hn : (n : Int) = (bcdValue x - bcdValue y - c.toNat : Int) % 100) :
    (daa8 (sub8 x y c).1 (sub8 x y c).2).1.toNat = 16 * (n / 10) + n % 10 := by
  have borrow := c.toNat_le
  have diff := sub8_toNat x y c
  have corr := daaCorrection_sub8 (c := c) hx hy
  rw [daa8_fst_of_n _ _ rfl, BitVec.toNat_sub]
  simp only [isBcd, bcdValue] at *
  omega

end PackedBcd

/-- Settles O27: the corrected byte has the two decimal digits of the sum or of the difference, modulo 100. -/
theorem daaGivesTheDecimalResult : Obligations.DaaGivesTheDecimalResult := by
  intro x y c hx hy
  obtain ⟨n, hn⟩ : ∃ n : Nat, (n : Int) = (bcdValue x - bcdValue y - c.toNat : Int) % 100 :=
    ⟨_, Int.toNat_of_nonneg (Int.emod_nonneg _ (by decide))⟩
  obtain ⟨sumBcd, sum⟩ := isBcd_and_bcdValue_of_digits (Nat.mod_lt _ (by decide)) (daa8_add8_toNat hx hy rfl)
  obtain ⟨diffBcd, diff⟩ := isBcd_and_bcdValue_of_digits (by omega) (daa8_sub8_toNat hx hy hn)
  exact ⟨⟨sumBcd, sum, daa8_add8_c_iff hx hy⟩, diffBcd, by rw [diff, hn], daa8_sub8_c_iff hx hy⟩

/-! ### What the instructions do (R290 to R301) -/

theorem exec_daa (s : State) : exec .daa s = .next (s.setAF (daa8 s.regs.a s.regs.f)) := rfl

theorem exec_cpl (s : State) :
    exec .cpl s = .next (s.setAF (~~~s.regs.a, { s.regs.f with h := true, n := true })) := by
  rw [← BitVec.xor_allOnes]
  rfl

theorem exec_neg (s : State) : exec .neg s = .next (s.setAF (sub8 0x00#8 s.regs.a false)) := rfl

/-! NEG is 0 less A (R292), with its flags in terms of A. -/

section Neg
variable (a : Byte)

theorem sub8_zero_left_fst : (sub8 0x00#8 a false).1 = -a := by rw [sub8_fst, BitVec.zero_sub]

theorem sub8_zero_left_z : (sub8 0x00#8 a false).2.z = decide (a = 0#8) := by
  have zero : -a = 0#8 ↔ a = 0#8 := neg_eq_zero
  rw [Bool.eq_iff_iff, decide_eq_true_iff, ← zero, ← sub8_zero_left_fst]
  exact beq_iff_eq

theorem sub8_zero_left_h : (sub8 0x00#8 a false).2.h = decide (a.toNat % 16 ≠ 0) := by
  have e : (sub8 0x00#8 a false).2.h = true ↔ a.toNat % 16 > 0 := sub8_h_iff 0x00#8 a false
  rw [Bool.eq_iff_iff, e, decide_eq_true_iff]
  exact Nat.pos_iff_ne_zero

/-- The only signed byte whose negative is out of range is 80H. -/
theorem sub8_zero_left_pv : (sub8 0x00#8 a false).2.pv = decide (a = 0x80#8) := by
  have e : (sub8 0x00#8 a false).2.pv = true ↔ 0 - a.toInt - 0 < -128 ∨ 0 - a.toInt - 0 > 127 :=
    sub8_pv_iff_toInt 0x00#8 a false
  have min : a = 0x80#8 ↔ a.toInt = -128 := BitVec.toInt_inj.symm
  have least : -128 ≤ a.toInt := BitVec.le_toInt a
  have most : a.toInt < 128 := BitVec.toInt_lt
  rw [Bool.eq_iff_iff, e, decide_eq_true_iff, min]
  omega

theorem sub8_zero_left_c : (sub8 0x00#8 a false).2.c = decide (a ≠ 0#8) := by
  have e : (sub8 0x00#8 a false).2.c = true ↔ a.toNat > 0 := sub8_c_iff 0x00#8 a false
  have zero : a = 0#8 ↔ a.toNat = 0 := BitVec.toNat_inj.symm
  rw [Bool.eq_iff_iff, e, decide_eq_true_iff, ne_eq, zero]
  exact Nat.pos_iff_ne_zero

theorem sub8_zero_left : sub8 0x00#8 a false =
    (-a, { s := (-a).msb, z := decide (a = 0#8), h := decide (a.toNat % 16 ≠ 0), pv := decide (a = 0x80#8)
           n := true, c := decide (a ≠ 0#8) }) := by
  rw [← sub8_zero_left_z, ← sub8_zero_left_h, ← sub8_zero_left_pv, ← sub8_zero_left_c,
    ← sub8_zero_left_fst, ← sub8_s]
  rfl

end Neg

/-- Settles O44: DAA by its equations, NEG as 0 less A, the rest as their meanings are written. -/
theorem accumulatorAndCarry : Obligations.AccumulatorAndCarry := by
  intro s a f corr res
  refine ⟨?daa, exec_cpl s, ?neg, rfl, rfl⟩
  case daa =>
    have value : (daa8 a f).1 = res := by rw [daa8_fst, daaCorrection_eq]
    rw [exec_daa, ← value, ← daa8_snd]
    rfl
  case neg =>
    rw [exec_neg, sub8_zero_left]
    rfl

/-- Settles O45: each is the one update its meaning is written with. -/
theorem cpuControl : Obligations.CpuControl := fun _ => ⟨rfl, rfl, rfl, rfl, rfl, rfl, rfl⟩

end Sys2Proof.Machine

/-! ## The 16-bit arithmetic group: O46 -/

namespace Sys2Proof.Machine

/-! ### Words and a carry as signed numbers -/

theorem getLsbD_fifteen (v : Word) : v.getLsbD 15 = v.msb := (BitVec.msb_eq_getLsbD_last v).symm

theorem word_toInt_bounds (v : Word) : -32768 ≤ v.toInt ∧ v.toInt < 32768 := ⟨v.le_toInt, v.toInt_lt⟩

theorem toInt_ofNat_carry (c : Bool) : (BitVec.ofNat 16 c.toNat).toInt = c.toNat := by cases c <;> rfl

/-! ### add16, adc16 and sbc16: R316 to R318 in words and in signed numbers -/

section WordSums
variable (a b : Word) (c h : Bool)

theorem add16_eq (f : Flags) :
    add16 a b h f = (a + b, { f with h := h, n := false, c := decide (a.toNat + b.toNat > 65535) }) := by
  have sum : BitVec.ofNat 16 (a.toNat + b.toNat) = a + b := BitVec.eq_of_toNat_eq (BitVec.toNat_ofNat _ _)
  rw [← sum]
  rfl

theorem adc16_fst : (adc16 a b c h).1 = a + b + BitVec.ofNat 16 c.toNat := by
  have sum : (adc16 a b c h).1.toNat = (a.toNat + b.toNat + c.toNat) % 65536 := BitVec.toNat_ofNat _ _
  apply BitVec.eq_of_toNat_eq
  rw [sum, BitVec.toNat_add, BitVec.toNat_add, BitVec.toNat_ofNat]
  omega

theorem adc16_toInt : (adc16 a b c h).1.toInt = (a.toInt + b.toInt + c.toNat).bmod 65536 := by
  rw [adc16_fst, BitVec.toInt_add, BitVec.toInt_add, toInt_ofNat_carry, Int.bmod_add_bmod]

/-- The signs tell the overflow of the signed sum. -/
theorem adc16_pv : (adc16 a b c h).2.pv =
    decide (a.toInt + b.toInt + c.toNat < -32768 ∨ a.toInt + b.toInt + c.toNat > 32767) := by
  have signs : (adc16 a b c h).2.pv = true ↔ a.msb = b.msb ∧ (adc16 a b c h).1.msb ≠ a.msb := by
    simp only [← getLsbD_fifteen]
    exact Bool.and_eq_true_iff.trans (and_congr beq_iff_eq bne_iff_ne)
  have boundsA := word_toInt_bounds a
  have boundsB := word_toInt_bounds b
  have carry := c.toNat_le
  rw [Bool.eq_iff_iff, signs, decide_eq_true_iff]
  simp only [BitVec.msb_eq_toInt, adc16_toInt, decide_eq_decide, ne_eq, Int.bmod]
  omega

theorem adc16_eq : adc16 a b c h =
    (a + b + BitVec.ofNat 16 c.toNat,
      { s := (a + b + BitVec.ofNat 16 c.toNat).msb, z := decide (a + b + BitVec.ofNat 16 c.toNat = 0#16), h := h
        pv := decide (a.toInt + b.toInt + c.toNat < -32768 ∨ a.toInt + b.toInt + c.toNat > 32767)
        n := false, c := decide (a.toNat + b.toNat + c.toNat > 65535) }) := by
  rw [← adc16_pv a b c h, ← adc16_fst a b c h, ← getLsbD_fifteen]
  rfl

theorem sbc16_fst : (sbc16 a b c h).1 = a - b - BitVec.ofNat 16 c.toNat := by
  have diff : (sbc16 a b c h).1.toNat = ((a.toNat - b.toNat - c.toNat : Int) % 65536).toNat := BitVec.toNat_ofInt _
  apply BitVec.eq_of_toNat_eq
  rw [diff, BitVec.toNat_sub, BitVec.toNat_sub, BitVec.toNat_ofNat]
  omega

theorem sbc16_toInt : (sbc16 a b c h).1.toInt = (a.toInt - b.toInt - c.toNat).bmod 65536 := by
  rw [sbc16_fst, BitVec.toInt_sub, BitVec.toInt_sub, toInt_ofNat_carry, Int.bmod_sub_bmod]

/-- The signs tell the overflow of the signed difference. -/
theorem sbc16_pv : (sbc16 a b c h).2.pv =
    decide (a.toInt - b.toInt - c.toNat < -32768 ∨ a.toInt - b.toInt - c.toNat > 32767) := by
  have signs : (sbc16 a b c h).2.pv = true ↔ a.msb ≠ b.msb ∧ (sbc16 a b c h).1.msb ≠ a.msb := by
    simp only [← getLsbD_fifteen]
    exact Bool.and_eq_true_iff.trans (and_congr bne_iff_ne bne_iff_ne)
  have boundsA := word_toInt_bounds a
  have boundsB := word_toInt_bounds b
  have borrow := c.toNat_le
  rw [Bool.eq_iff_iff, signs, decide_eq_true_iff]
  simp only [BitVec.msb_eq_toInt, sbc16_toInt, decide_eq_decide, ne_eq, Int.bmod]
  omega

/-- C is the borrow. -/
theorem sbc16_c : (sbc16 a b c h).2.c = decide (b.toNat + c.toNat > a.toNat) := by
  have negative : (sbc16 a b c h).2.c = true ↔ ((a.toNat - b.toNat - c.toNat : Int) < 0) := decide_eq_true_iff
  rw [Bool.eq_iff_iff, negative, decide_eq_true_iff]
  omega

theorem sbc16_eq : sbc16 a b c h =
    (a - b - BitVec.ofNat 16 c.toNat,
      { s := (a - b - BitVec.ofNat 16 c.toNat).msb, z := decide (a - b - BitVec.ofNat 16 c.toNat = 0#16), h := h
        pv := decide (a.toInt - b.toInt - c.toNat < -32768 ∨ a.toInt - b.toInt - c.toNat > 32767)
        n := true, c := decide (b.toNat + c.toNat > a.toNat) }) := by
  rw [← sbc16_pv a b c h, ← sbc16_c a b c h, ← sbc16_fst a b c h, ← getLsbD_fifteen]
  rfl

end WordSums

/-! ### What the instructions do, the operand named by its code (R97, R99, R316 to R326) -/

section WordInstructions
variable (s : State)

theorem exec_addHlPair (ss : Pair) : exec (.addHlPair ss) s =
    .next ((s.drew 1).setHlF (add16 s.hl (s.getPair ss) (Config.freeBit s.draws) s.regs.f)) := rfl

theorem exec_addIxPair (pp : PairX) : exec (.addIxPair pp) s =
    .next ((s.drew 1).setIxF (add16 s.ix (s.getPairX pp) (Config.freeBit s.draws) s.regs.f)) := rfl

theorem exec_addIyPair (rr : PairY) : exec (.addIyPair rr) s =
    .next ((s.drew 1).setIyF (add16 s.iy (s.getPairY rr) (Config.freeBit s.draws) s.regs.f)) := rfl

theorem exec_adcHlPair (ss : Pair) : exec (.adcHlPair ss) s =
    .next ((s.drew 1).setHlF (adc16 s.hl (s.getPair ss) s.regs.f.c (Config.freeBit s.draws))) := rfl

theorem exec_sbcHlPair (ss : Pair) : exec (.sbcHlPair ss) s =
    .next ((s.drew 1).setHlF (sbc16 s.hl (s.getPair ss) s.regs.f.c (Config.freeBit s.draws))) := rfl

theorem exec_incPair (ss : Pair) : exec (.incPair ss) s = .next (s.setPair ss (s.getPair ss + 1#16)) := rfl

theorem exec_decPair (ss : Pair) : exec (.decPair ss) s = .next (s.setPair ss (s.getPair ss - 1#16)) := rfl

end WordInstructions

/-- Settles O46: each sum and difference for an operand of any code, then code by code. -/
theorem wordArithmetic : Obligations.WordArithmetic := by
  refine ⟨fun s => ?sums, fun s => ?counts⟩
  case sums =>
    intro c h u addF bc de hl addHl addIx addIy adcHl sbcHl
    have addHl_eq (ss : Pair) : exec (.addHlPair ss) s = addHl (s.getPair ss) := by
      rw [exec_addHlPair, add16_eq]
      rfl
    have addIx_eq (pp : PairX) : exec (.addIxPair pp) s = addIx (s.getPairX pp) := by
      rw [exec_addIxPair, add16_eq]
      rfl
    have addIy_eq (rr : PairY) : exec (.addIyPair rr) s = addIy (s.getPairY rr) := by
      rw [exec_addIyPair, add16_eq]
      rfl
    have adcHl_eq (ss : Pair) : exec (.adcHlPair ss) s = adcHl (s.getPair ss) := by
      rw [exec_adcHlPair, adc16_eq]
      rfl
    have sbcHl_eq (ss : Pair) : exec (.sbcHlPair ss) s = sbcHl (s.getPair ss) := by
      rw [exec_sbcHlPair, sbc16_eq]
      rfl
    exact ⟨⟨addHl_eq .bc, addHl_eq .de, addHl_eq .hl, addHl_eq .sp⟩,
      ⟨addIx_eq .bc, addIx_eq .de, addIx_eq .ix, addIx_eq .sp⟩,
      ⟨addIy_eq .bc, addIy_eq .de, addIy_eq .iy, addIy_eq .sp⟩,
      ⟨adcHl_eq .bc, adcHl_eq .de, adcHl_eq .hl, adcHl_eq .sp⟩,
      sbcHl_eq .bc, sbcHl_eq .de, sbcHl_eq .hl, sbcHl_eq .sp⟩
  case counts =>
    exact ⟨⟨exec_incPair s .bc, exec_incPair s .de, exec_incPair s .hl, exec_incPair s .sp⟩,
      ⟨exec_decPair s .bc, exec_decPair s .de, exec_decPair s .hl, exec_decPair s .sp⟩, rfl, rfl, rfl, rfl⟩

end Sys2Proof.Machine

/-! ## The rotate and shift group: O24, O47 -/

namespace Sys2Proof.Machine

/-! ### A field of a byte, and two fields side by side, as numbers -/

theorem toNat_append_eq_add {m n : Nat} (x : BitVec m) (y : BitVec n) : (x ++ y).toNat = 2 ^ n * x.toNat + y.toNat := by
  rw [BitVec.toNat_append, ← Nat.shiftLeft_add_eq_or_of_lt y.isLt, Nat.shiftLeft_eq, Nat.mul_comm]

theorem toNat_extractLsb'_eq_div_mod (v : Byte) (i n : Nat) :
    (v.extractLsb' i n).toNat = v.toNat / 2 ^ i % 2 ^ n := by
  rw [BitVec.extractLsb'_toNat, Nat.shiftRight_eq_div_pow]

theorem extractLsb'_one_eq_ofBool (v : Byte) (i : Nat) : v.extractLsb' i 1 = BitVec.ofBool (v.getLsbD i) := by
  apply BitVec.eq_of_getLsbD_eq
  intro k hk
  obtain rfl : k = 0 := by omega
  simp only [BitVec.getLsbD_extractLsb', BitVec.getLsbD_ofBool, Nat.add_zero]
  rfl

/-! ### Each of the seven is RL or RR with the right bit coming in (R336 to R342) -/

section Moves
variable (v : Byte) (c : Bool)

theorem rlc8_eq_rl8 : rlc8 v = rl8 v.msb v := by
  rw [rlc8, extractLsb'_one_eq_ofBool, getLsbD_seven, rl8, getLsbD_seven]

theorem sla8_eq_rl8 : sla8 v = rl8 false v := rfl

theorem rrc8_eq_rr8 : rrc8 v = rr8 (v.getLsbD 0) v := by rw [rrc8, extractLsb'_one_eq_ofBool, rr8]

theorem sra8_eq_rr8 : sra8 v = rr8 v.msb v := by rw [sra8, extractLsb'_one_eq_ofBool, getLsbD_seven, rr8]

theorem srl8_eq_rr8 : srl8 v = rr8 false v := rfl

theorem rl8_getLsbD_zero : (rl8 c v).1.getLsbD 0 = c := by
  have low : (rl8 c v).1.getLsbD 0 = (BitVec.ofBool c).getLsbD 0 := BitVec.getLsbD_append
  rw [low, BitVec.getLsbD_ofBool, decide_eq_true rfl, Bool.true_and]

theorem rl8_getLsbD_succ {k : Nat} (hk : k < 7) : (rl8 c v).1.getLsbD (k + 1) = v.getLsbD k := by
  have high : (rl8 c v).1.getLsbD (k + 1) = (v.extractLsb' 0 7).getLsbD k := BitVec.getLsbD_append
  rw [high, BitVec.getLsbD_extractLsb', decide_eq_true hk, Bool.true_and, Nat.zero_add]

theorem rr8_getLsbD_seven : (rr8 c v).1.getLsbD 7 = c := by
  have high : (rr8 c v).1.getLsbD 7 = (BitVec.ofBool c).getLsbD 0 := BitVec.getLsbD_append
  rw [high, BitVec.getLsbD_ofBool, decide_eq_true rfl, Bool.true_and]

theorem rr8_getLsbD_of_lt {k : Nat} (hk : k < 7) : (rr8 c v).1.getLsbD k = v.getLsbD (k + 1) := by
  have low : (rr8 c v).1.getLsbD k = (v.extractLsb' 1 7).getLsbD k := BitVec.getLsbD_append.trans (if_pos hk)
  rw [low, BitVec.getLsbD_extractLsb', decide_eq_true hk, Bool.true_and, Nat.add_comm]

theorem rlc8_getLsbD {k : Nat} (hk : k < 8) : (rlc8 v).1.getLsbD k = v.getLsbD ((k + 7) % 8) := by
  rw [rlc8_eq_rl8]
  cases k with
  | zero => exact (rl8_getLsbD_zero v _).trans (getLsbD_seven v).symm
  | succ k =>
    have back : (k + 1 + 7) % 8 = k := by omega
    rw [rl8_getLsbD_succ v _ (by omega), back]

theorem rrc8_getLsbD {k : Nat} (hk : k < 8) : (rrc8 v).1.getLsbD k = v.getLsbD ((k + 1) % 8) := by
  rw [rrc8_eq_rr8]
  obtain rfl | low : k = 7 ∨ k < 7 := by omega
  · exact rr8_getLsbD_seven v _
  · rw [rr8_getLsbD_of_lt v _ low, Nat.mod_eq_of_lt (by omega)]

/-- Left is doubling, the bit that comes in the unit. -/
theorem rl8_toNat : (rl8 c v).1.toNat = (2 * v.toNat + c.toNat) % 256 := by
  have parts : (rl8 c v).1.toNat = 2 ^ 1 * (v.extractLsb' 0 7).toNat + (BitVec.ofBool c).toNat :=
    toNat_append_eq_add _ _
  have carry := c.toNat_le
  rw [parts, toNat_extractLsb'_eq_div_mod, BitVec.toNat_ofBool]
  omega

/-- Right is halving, the bit that comes in 128. -/
theorem rr8_toNat : (rr8 c v).1.toNat = v.toNat / 2 + 128 * c.toNat := by
  have parts : (rr8 c v).1.toNat = 2 ^ 7 * (BitVec.ofBool c).toNat + (v.extractLsb' 1 7).toNat :=
    toNat_append_eq_add _ _
  have byte : v.toNat < 256 := v.isLt
  rw [parts, toNat_extractLsb'_eq_div_mod, BitVec.toNat_ofBool]
  omega

theorem sla8_toNat : (sla8 v).1.toNat = 2 * v.toNat % 256 := rl8_toNat v false

theorem srl8_toNat : (srl8 v).1.toNat = v.toNat / 2 := rr8_toNat v false

/-- With its own sign coming in, a signed byte is halved. -/
theorem sra8_toInt : (sra8 v).1.toInt = v.toInt / 2 := by
  have byte : v.toNat < 256 := v.isLt
  rw [sra8_eq_rr8, toInt_eq_ite_toNat, toInt_eq_ite_toNat, rr8_toNat, msb_eq_decide_toNat]
  by_cases negative : 128 ≤ v.toNat
  · simp only [negative, decide_true, Bool.toNat_true, if_true]
    omega
  · simp only [negative, decide_false, Bool.toNat_false, if_false]
    omega

end Moves

/-! ### The flags (R342, R375) -/

theorem shifted_eq (p : Byte × Bool) : shifted p =
    (p.1, { s := p.1.msb, z := decide (p.1.toNat = 0), h := false, pv := parity p.1, n := false, c := p.2 }) := by
  have zero : decide (p.1.toNat = 0) = (p.1 == 0#8) := by
    rw [Bool.eq_iff_iff, decide_eq_true_iff, beq_zero_iff_toNat]
  rw [zero, ← getLsbD_seven, shifted]

theorem parityFlags_eq (v : Byte) (f : Flags) : parityFlags v f =
    { s := v.msb, z := decide (v = 0#8), h := false, pv := parity v, n := false, c := f.c } := by
  rw [← getLsbD_seven]
  rfl

/-- Settles O24: bit by bit and as numbers, each by what RL or RR does. -/
theorem rotateFunctions : Obligations.RotateFunctions :=
  ⟨fun v _ hk => ⟨rlc8_getLsbD v hk, rrc8_getLsbD v hk⟩,
    fun v c => ⟨rl8_toNat v c, rr8_toNat v c, sla8_toNat v, sra8_toInt v, srl8_toNat v⟩,
    fun v _ => ⟨getLsbD_seven v, getLsbD_seven v, getLsbD_seven v, rfl, rfl, rfl, rfl⟩, shifted_eq⟩

/-! ### RLD and RRD (R375, R376) -/

/-- A high and a low digit side by side are 16 times the one and the other. -/
theorem digits_append (hi lo : BitVec 4) : (hi ++ lo : Byte) = BitVec.ofNat 8 (hi.toNat * 16 + lo.toNat) := by
  have pair : (hi ++ lo : Byte).toNat = 2 ^ 4 * hi.toNat + lo.toNat := toNat_append_eq_add hi lo
  apply BitVec.eq_of_toNat_eq
  rw [pair, BitVec.toNat_ofNat]
  omega

theorem high_digit_toNat (v : Byte) : (v.extractLsb' 4 4).toNat = v.toNat / 16 := by
  have byte : v.toNat < 256 := v.isLt
  rw [toNat_extractLsb'_eq_div_mod]
  omega

theorem low_digit_toNat (v : Byte) : (v.extractLsb' 0 4).toNat = v.toNat % 16 := by
  rw [toNat_extractLsb'_eq_div_mod]
  omega

theorem rldDigits_eq (a m : Byte) : rldDigits a m =
    (BitVec.ofNat 8 (a.toNat / 16 * 16 + m.toNat / 16), BitVec.ofNat 8 (m.toNat % 16 * 16 + a.toNat % 16)) := by
  rw [rldDigits, digits_append, digits_append]
  simp only [high_digit_toNat, low_digit_toNat]

theorem rrdDigits_eq (a m : Byte) : rrdDigits a m =
    (BitVec.ofNat 8 (a.toNat / 16 * 16 + m.toNat % 16), BitVec.ofNat 8 (a.toNat % 16 * 16 + m.toNat / 16)) := by
  rw [rrdDigits, digits_append, digits_append]
  simp only [high_digit_toNat, low_digit_toNat]

/-- A rotation of digits is one write at HL; A and the flags of the new A change with it, C is kept. -/
theorem State.rotateDigits_took {s : State} (hm : s.mem.wf = true) (hu : s.Undisturbed)
    {digits : Byte → Byte → Byte × Byte} {a v : Byte} (h : digits s.regs.a (s.read8 s.hl) = (a, v)) :
    TookByte ((s.afterRead8 s.hl).setAF (a, parityFlags a s.regs.f)) (s.rotateDigits digits) s.hl v := by
  have store : TookByte (s.afterRead8 s.hl) ((s.afterRead8 s.hl).write8 s.hl v) s.hl v :=
    State.write8_took (hu.afterRead8 s.hl) s.hl v (State.afterRead8_wf s s.hl hm)
  rw [State.rotateDigits, h]
  exact store.update (f := fun x => x.setAF (a, parityFlags a s.regs.f)) fun _ _ _ => rfl

/-- An instruction that rotates the digits of A and of the byte at HL. -/
theorem tookByte_of_exec_eq_rotateDigits {s : State} {i : Instr} {digits : Byte → Byte → Byte × Byte} {a v : Byte}
    (hm : s.mem.wf = true) (hu : s.Undisturbed) (h : exec i s = .next (s.rotateDigits digits))
    (hd : digits s.regs.a (s.read8 s.hl) = (a, v)) :
    ∃ t, exec i s = .next t ∧
      TookByte { s.afterRead8 s.hl with regs := { s.regs with
        a := a
        f := { s := a.msb, z := decide (a = 0#8), h := false, pv := parity a, n := false, c := s.regs.f.c } } }
        t s.hl v := by
  have took := State.rotateDigits_took hm hu hd
  rw [State.setAF, State.afterRead8_regs, parityFlags_eq] at took
  exact ⟨_, h, took⟩

/-! ### The seven operations on a byte of memory (R347 to R374) -/

theorem onEveryMemoryOperand_of_shiftAt {s : State} {hl : Instr} {ix iy : Byte → Instr} {f : Byte → Byte × Bool}
    (hm : s.mem.wf = true) (hu : s.Undisturbed) (atHl : exec hl s = .next (s.shiftAt f s.hl))
    (atIx : ∀ d, exec (ix d) s = .next (s.shiftAt f (s.ixAddr d)))
    (atIy : ∀ d, exec (iy d) s = .next (s.shiftAt f (s.iyAddr d))) :
    OnEveryMemoryOperand s hl ix iy (fun m => (f m).1) fun u m => u.setFlags (shifted (f m)).2 :=
  ⟨tookByte_of_exec_eq_writeF hm hu atHl, fun d => tookByte_of_exec_eq_writeF hm hu (atIx d),
    fun d => tookByte_of_exec_eq_writeF hm hu (atIy d)⟩

/-- Settles O47: in A and in a register each is the update its meaning is written with; in memory the result is written
back behind the read. -/
theorem rotatesAndShifts : Obligations.RotatesAndShifts := by
  refine ⟨fun s => ?accumulator, fun s r => ?register, fun s hm hu => ?memory, fun s hm hu => ?digits⟩
  case accumulator => exact ⟨rfl, rfl, rfl, rfl⟩
  case register => exact ⟨rfl, rfl, rfl, rfl, rfl, rfl, rfl⟩
  case memory =>
    have shifts {hl : Instr} {ix iy : Byte → Instr} (f : Byte → Byte × Bool) :=
      onEveryMemoryOperand_of_shiftAt (hl := hl) (ix := ix) (iy := iy) (f := f) hm hu
    exact ⟨shifts rlc8 rfl (fun _ => rfl) fun _ => rfl, shifts (rl8 s.regs.f.c) rfl (fun _ => rfl) fun _ => rfl,
      shifts rrc8 rfl (fun _ => rfl) fun _ => rfl, shifts (rr8 s.regs.f.c) rfl (fun _ => rfl) fun _ => rfl,
      shifts sla8 rfl (fun _ => rfl) fun _ => rfl, shifts sra8 rfl (fun _ => rfl) fun _ => rfl,
      shifts srl8 rfl (fun _ => rfl) fun _ => rfl⟩
  case digits =>
    exact ⟨tookByte_of_exec_eq_rotateDigits hm hu rfl (rldDigits_eq _ _),
      tookByte_of_exec_eq_rotateDigits hm hu rfl (rrdDigits_eq _ _)⟩

end Sys2Proof.Machine

/-! ## The bit set, reset and test group: O48 -/

namespace Sys2Proof.Machine

/-! ### SET and RES, bit by bit (47_bit.md R395, R399) -/

section BitOfByte
variable (b : BitVec 3) (v : Byte) (k : Nat)

theorem bitMask_getLsbD : (bitMask b).getLsbD k = decide (k = b.toNat) := by
  have within : b.toNat < 8 := b.isLt
  have power : (bitMask b).getLsbD k = (decide (b.toNat < 8) && decide (b.toNat = k)) :=
    BitVec.getLsbD_twoPow b.toNat k
  rw [power, decide_eq_true within, Bool.true_and, decide_eq_decide]
  exact eq_comm

theorem setBit8_getLsbD : (setBit8 b v).getLsbD k = (decide (k = b.toNat) || v.getLsbD k) := by
  rw [setBit8, BitVec.getLsbD_or, bitMask_getLsbD, Bool.or_comm]

variable {k}

theorem resetBit8_getLsbD (hk : k < 8) :
    (resetBit8 b v).getLsbD k = (!decide (k = b.toNat) && v.getLsbD k) := by
  rw [resetBit8, BitVec.getLsbD_and, BitVec.getLsbD_not, bitMask_getLsbD, decide_eq_true hk, Bool.true_and,
    Bool.and_comm]

end BitOfByte

/-! ### BIT (R391 to R394) -/

/-- Behind a read of the operand the registers are those from before it, so only F differs from them. -/
theorem State.bitTest_eq {s u : State} (h : u.regs = s.regs) (bit : Bool) : u.bitTest bit =
    { u with draws := u.draws + 2
             regs := { s.regs with f :=
              { s := Config.freeBit u.draws, z := !bit, h := true
                pv := Config.freeBit (u.draws + 1), n := false, c := s.regs.f.c } } } := by
  rw [← h]
  rfl

/-! ### SET and RES of a byte of memory (R396 to R398, R400 to R402) -/

theorem State.changeAt_took {s : State} (hm : s.mem.wf = true) (hu : s.Undisturbed) (a : Word) (f : Byte → Byte) :
    TookByte (s.afterRead8 a) (s.changeAt a f) a (f (s.read8 a)) :=
  State.write8_took (hu.afterRead8 a) a _ (State.afterRead8_wf s a hm)

theorem onEveryMemoryOperand_of_changeAt {s : State} {hl : Instr} {ix iy : Byte → Instr} {f : Byte → Byte}
    (hm : s.mem.wf = true) (hu : s.Undisturbed) (atHl : exec hl s = .next (s.changeAt s.hl f))
    (atIx : ∀ d, exec (ix d) s = .next (s.changeAt (s.ixAddr d) f))
    (atIy : ∀ d, exec (iy d) s = .next (s.changeAt (s.iyAddr d) f)) :
    OnEveryMemoryOperand s hl ix iy f fun u _ => u :=
  ⟨⟨_, atHl, State.changeAt_took hm hu _ f⟩, fun d => ⟨_, atIx d, State.changeAt_took hm hu _ f⟩,
    fun d => ⟨_, atIy d, State.changeAt_took hm hu _ f⟩⟩

/-- Settles O48: BIT is one test behind its read; SET and RES differ from the byte they read where the mask of the one
bit says, and store that byte. -/
theorem bitInstructions : Obligations.BitInstructions := by
  refine ⟨fun s b => ?test, fun v b k hk => ⟨setBit8_getLsbD b v k, resetBit8_getLsbD b v hk⟩,
    fun s b r => ⟨rfl, rfl⟩, fun s b hm hu => ⟨?set, ?reset⟩⟩
  case test =>
    have onByte {i : Instr} (u : State) (v : Byte) (h : u.regs = s.regs)
        (he : exec i s = .next (u.bitTest (testBit8 b v))) :=
      he.trans (congrArg Host.Outcome.next (State.bitTest_eq h (testBit8 b v)))
    have onRead {i : Instr} (a : Word) := onByte (i := i) (s.afterRead8 a) (s.read8 a) (State.afterRead8_regs s a)
    exact ⟨fun r => onByte s (s.getReg r) rfl rfl, onRead s.hl rfl, fun d => onRead (s.ixAddr d) rfl,
      fun d => onRead (s.iyAddr d) rfl⟩
  case set => exact onEveryMemoryOperand_of_changeAt hm hu rfl (fun _ => rfl) fun _ => rfl
  case reset => exact onEveryMemoryOperand_of_changeAt hm hu rfl (fun _ => rfl) fun _ => rfl

end Sys2Proof.Machine

/-! ## Every instruction completes: O15 -/

namespace Sys2Proof.Machine

/-- Settles O15: an instruction's moves end in a next state. -/
theorem everyInstructionCompletes : Obligations.EveryInstructionCompletes :=
  fun i s => (exec_mayReach i s).imp fun _ h => h.1

end Sys2Proof.Machine

/-! ## Jumps, calls and returns: O25, O49, O50, O51 -/

namespace Sys2Proof.Machine

/-! ### Conditions (48_jump_call_return.md R410) -/

/-- Settles O25: the encoder writes the code of the condition the decoder finds for it; a condition is a flag or its
complement. -/
theorem conditionCodes : Obligations.ConditionCodes := by
  refine ⟨fun k nn => ?field, fun f => ?flag⟩
  case field =>
    have written (x : BitVec 2) (y : BitVec 3) : x ++ (condOfCode k).code ++ y = x ++ k ++ y := by
      rw [code_condOfCode]
    exact ⟨congrArg some (written _ _), congrArg some (written _ _), congrArg (fun v : Byte => [v]) (written _ _)⟩
  case flag =>
    have complement (b : Bool) : (!b) = true ↔ b = false := (Bool.not_eq_true' b).to_iff
    exact ⟨complement f.z, Iff.rfl, complement f.c, Iff.rfl, complement f.pv, Iff.rfl, complement f.s, Iff.rfl⟩

/-! ### Jumps (R411 to R421) -/

theorem byte_sub_one_eq_zero_iff (v : Byte) : v - 1#8 = 0#8 ↔ v = 1#8 := sub_eq_zero

/-- DJNZ (R421): B counts down, and it jumps until B is 0. -/
theorem exec_djnz (e : Byte) (s : State) :
    exec (.djnz e) s =
      .next { s with regs := { s.regs with b := s.regs.b - 1#8 }
                     pc := if s.regs.b = 1#8 then s.pc else s.pc + e.signExtend 16 } := by
  have meaning : exec (.djnz e) s =
      .next (if s.regs.b - 1#8 = 0#8 then s.setReg .b (s.regs.b - 1#8)
        else (s.setReg .b (s.regs.b - 1#8)).jumpRelative e) := rfl
  rw [meaning]
  by_cases last : s.regs.b = 1#8
  · rw [if_pos ((byte_sub_one_eq_zero_iff _).2 last), if_pos last]; rfl
  · rw [if_neg (last ∘ (byte_sub_one_eq_zero_iff _).1), if_neg last]; rfl

/-- Settles O49: each is the one update of PC its meaning is written with; DJNZ counts besides. -/
theorem jumps : Obligations.Jumps := fun s =>
  ⟨fun _ => rfl, fun _ _ => rfl, fun _ => rfl, fun _ => rfl, fun _ => rfl, fun _ => rfl, fun _ => rfl, rfl, rfl, rfl,
    fun e => exec_djnz e s⟩

/-! ### Calls and returns (R422 to R429) -/

/-- An instruction whose meaning is a call pushes PC and jumps. -/
theorem tookTwo_of_exec_eq_callTo {s : State} {i : Instr} {target : Word} (hm : s.mem.wf = true) (hu : s.Undisturbed)
    (h : exec i s = .next (s.callTo target)) :
    ∃ t, exec i s = .next t ∧ TookTwo { s with sp := s.sp - 2#16, pc := target } t (s.sp - 1#16) (highByte s.pc)
      (s.sp - 2#16) (lowByte s.pc) :=
  ⟨_, h, State.callTo_took hu target hm⟩

theorem exec_callCond (cc : Cond) (nn : Word) (s : State) :
    exec (.callCond cc nn) s = .next (if condHolds cc s.regs.f then s.callTo nn else s) := rfl

/-- Settles O50: each is the call of `callTo`, or with its condition false nothing. -/
theorem callsAndRestarts : Obligations.CallsAndRestarts := by
  intro s hm hu called
  have call {i : Instr} {target : Word} := tookTwo_of_exec_eq_callTo (i := i) (target := target) hm hu
  refine ⟨fun nn => call rfl, fun cc nn taken => call ?_, fun cc nn notTaken => ?_, fun p => call rfl⟩
  · rw [exec_callCond, taken, if_pos rfl]
  · rw [exec_callCond, notTaken, if_neg Bool.false_ne_true]

/-- Settles O51: each is the two reads of a pop, then PC and SP; RETN and RETI also the enable. -/
theorem returns : Obligations.Returns := fun _ => ⟨rfl, fun _ => rfl, rfl, rfl, rfl⟩

end Sys2Proof.Machine

/-! ## The input and output group: O52, O53 -/

namespace Sys2Proof.Machine

/-- Settles O52: each is one I/O cycle; IN r,(C) sets the flags by the byte read. -/
theorem singleInputAndOutput : Obligations.SingleInputAndOutput := by
  refine ⟨fun s n => ⟨rfl, rfl⟩, fun s r => ?_⟩
  have flags (v : Byte) := parityFlags_eq v s.regs.f
  simp only [← flags]
  exact ⟨rfl, rfl, rfl⟩

/-! ### Block input and output (49_io.md R453 to R456, R459 to R462) -/

/-- What a block I/O instruction that begins in s does to the registers of x, PC included; four free values are used
up. -/
def State.blockIoRegs (s : State) (δ pc : Word) (x : State) : State :=
  State.setFlags { (x.setHl (s.hl + δ)).setReg .b (s.regs.b - 1#8) with draws := x.draws + 4, pc := pc }
    { s := Config.freeBit x.draws, z := decide (s.regs.b - 1#8 = 0#8), h := Config.freeBit (x.draws + 1)
      pv := Config.freeBit (x.draws + 2), n := true, c := Config.freeBit (x.draws + 3) }

theorem State.blockIoRegs_sparesMemory (s : State) (δ pc : Word) : SparesMemory (s.blockIoRegs δ pc) :=
  fun _ _ _ => rfl

section BlockIo
variable (s : State)

theorem State.blockIoDone_eq {up : Bool} {δ : Word} (h : ∀ v, moved up v = v + δ) {x : State} (regs : x.regs = s.regs) :
    x.blockIoDone up = s.blockIoRegs δ x.pc x := by
  have hl : s.hl + δ = moved up x.hl := by rw [h, State.hl, State.hl, regs]
  rw [State.blockIoRegs, hl, ← regs]
  rfl

/-- A repeating one puts PC back unless B is 0 (R454). -/
theorem State.repeatIo_blockIoDone {up : Bool} {δ : Word} (h : ∀ v, moved up v = v + δ) {x : State}
    (regs : x.regs = s.regs) :
    (x.blockIoDone up).repeatIo = s.blockIoRegs δ (if s.regs.b = 1#8 then x.pc else x.pc - 2#16) x := by
  rw [State.repeatIo, State.ite_repeatInstr (done := s.regs.b = 1#8), State.blockIoDone_eq s h regs]
  · rfl
  · rw [← byte_sub_one_eq_zero_iff, ← regs]
    rfl

variable {s}

theorem exec_eq_next_of_blockIoDone {i : Instr} {x : State} {up : Bool} {δ : Word} (h : ∀ v, moved up v = v + δ)
    (regs : x.regs = s.regs) (pc : x.pc = s.pc) (meaning : exec i s = .next (x.blockIoDone up)) :
    exec i s = .next (s.blockIoRegs δ s.pc x) := by
  rw [meaning, State.blockIoDone_eq s h regs, pc]

theorem exec_eq_next_of_repeatIo {i : Instr} {x : State} {up : Bool} {δ : Word} (h : ∀ v, moved up v = v + δ)
    (regs : x.regs = s.regs) (pc : x.pc = s.pc) (meaning : exec i s = .next (x.blockIoDone up).repeatIo) :
    exec i s = .next (s.blockIoRegs δ (if s.regs.b = 1#8 then s.pc else s.pc - 2#16) x) := by
  rw [meaning, State.repeatIo_blockIoDone s h regs, pc]

/-- An instruction that stores the byte read from port {B, C} at HL and then updates registers. -/
theorem tookByte_of_exec_eq_blockIoRegs {i : Instr} {δ pc : Word} (hm : s.mem.wf = true) (hu : s.Undisturbed)
    (h : exec i s = .next (s.blockIoRegs δ pc ((s.afterIoRead s.bc).write8 s.hl (s.ioValue s.bc)))) :
    ∃ t, exec i s = .next t ∧ TookByte (s.blockIoRegs δ pc (s.afterIoRead s.bc)) t s.hl (s.ioValue s.bc) :=
  ⟨_, h, (State.write8_took (hu.afterIoRead s.bc) _ _ (State.afterIoRead_wf s s.bc hm)).update
    (s.blockIoRegs_sparesMemory δ pc)⟩

end BlockIo

/-- Settles O53: each moves one byte and updates the registers; the repeating ones also PC. -/
theorem blockInputAndOutput : Obligations.BlockInputAndOutput := by
  intro s b flags done pc' inPort outPort input output
  have regsIn : ((s.afterIoRead s.bc).write8 s.hl (s.ioValue s.bc)).regs = s.regs := by simp
  have pcIn : ((s.afterIoRead s.bc).write8 s.hl (s.ioValue s.bc)).pc = s.pc := by simp
  have regsOut : ((s.afterRead8 s.hl).ioWrite s.blockOutPort (s.read8 s.hl)).regs = s.regs := by simp
  have pcOut : ((s.afterRead8 s.hl).ioWrite s.blockOutPort (s.read8 s.hl)).pc = s.pc := by simp
  refine ⟨fun hm hu => ?inputs, ?outputs⟩
  case inputs =>
    have store {i : Instr} {δ pc : Word} := tookByte_of_exec_eq_blockIoRegs (i := i) (δ := δ) (pc := pc) hm hu
    exact ⟨store (exec_eq_next_of_blockIoDone moved_up regsIn pcIn rfl),
      store (exec_eq_next_of_blockIoDone moved_down regsIn pcIn rfl),
      store (exec_eq_next_of_repeatIo moved_up regsIn pcIn rfl),
      store (exec_eq_next_of_repeatIo moved_down regsIn pcIn rfl)⟩
  case outputs =>
    exact ⟨exec_eq_next_of_blockIoDone moved_up regsOut pcOut rfl,
      exec_eq_next_of_blockIoDone moved_down regsOut pcOut rfl,
      exec_eq_next_of_repeatIo moved_up regsOut pcOut rfl, exec_eq_next_of_repeatIo moved_down regsOut pcOut rfl⟩

end Sys2Proof.Machine

/-! ## What a boundary accepts: O7, O8, O9 -/

namespace Sys2Proof.Machine

/-! ### What arrives (60_exceptions.md R482, R492) -/

theorem Device.clock_zero (d : Device) : d.clock 0 = d := by cases d <;> rfl

theorem State.elapse_zero (s : State) : s.elapse 0 = s := by
  have devices : s.devices.map (Device.clock 0) = s.devices :=
    (List.map_congr_left fun d _ => d.clock_zero).trans (List.map_id _)
  rw [State.elapse, devices]
  rfl

/-- The events change the devices, and use up free values, and nothing else. -/
theorem State.deviceEvents_eq (s : State) (es : List DeviceEvent) :
    s.deviceEvents es = { s with devices := (s.deviceEvents es).devices, draws := (s.deviceEvents es).draws } := by
  induction es generalizing s with
  | nil => rfl
  | cons e es ih => exact ih (s.applyEvent e)

theorem State.deviceEvents_append_singleton (s : State) (es : List DeviceEvent) (e : DeviceEvent) :
    s.deviceEvents (es ++ [e]) = (s.deviceEvents es).applyEvent e := by
  rw [State.deviceEvents, List.foldl_append]
  rfl

theorem State.arrive_eq (s : State) (b : BoundaryInput) : s.arrive b =
    { s with tStates := s.tStates + b.waitStates, nmiPending := s.nmiPending || b.nmiEdge, inputs := s.inputs.tail
             devices := (s.arrive b).devices, draws := (s.arrive b).draws } := by
  unfold State.arrive
  rw [State.deviceEvents_eq]
  rfl

theorem State.arrive_devices (s : State) (b : BoundaryInput) :
    (s.arrive b).devices = ((s.elapse b.waitStates).deviceEvents b.events).devices := rfl

theorem State.arrive_draws (s : State) (b : BoundaryInput) :
    (s.arrive b).draws = ((s.elapse b.waitStates).deviceEvents b.events).draws := rfl

theorem State.nextInput_of_inputs_nil {s : State} (h : s.inputs = []) : s.nextInput = BoundaryInput.quiet := by
  rw [State.nextInput, h]

/-- With nothing queued nothing arrives. -/
theorem State.atBoundary_of_inputs_nil {s : State} (h : s.inputs = []) : s.atBoundary = s := by
  have arrived : s.arrive BoundaryInput.quiet =
      { s.elapse 0 with nmiPending := s.nmiPending || false, inputs := s.inputs.tail } := rfl
  rw [State.atBoundary, State.nextInput_of_inputs_nil h, arrived, State.elapse_zero, h, Bool.or_false, List.tail_nil,
    ← h]

theorem State.intActive_iff (s : State) (b : BoundaryInput) :
    s.intActive b = true ↔ b.intLine = true ∨ s.chainRequests = true := by
  rw [State.intActive, Bool.or_eq_true]

/-! ### The state in which a boundary samples the interrupts (R488) -/

/-- What has arrived, with the bus back at the CPU. -/
def State.sampled (s : State) : State := { s.atBoundary with busGranted := false }

section SampledFields
variable (s : State)

@[simp] theorem State.sampled_regs : s.sampled.regs = s.regs := s.arrive_regs s.nextInput
@[simp] theorem State.sampled_alt : s.sampled.alt = s.alt := s.arrive_alt s.nextInput
@[simp] theorem State.sampled_ix : s.sampled.ix = s.ix := s.arrive_ix s.nextInput
@[simp] theorem State.sampled_iy : s.sampled.iy = s.iy := s.arrive_iy s.nextInput
@[simp] theorem State.sampled_sp : s.sampled.sp = s.sp := s.arrive_sp s.nextInput
@[simp] theorem State.sampled_pc : s.sampled.pc = s.pc := s.arrive_pc s.nextInput
@[simp] theorem State.sampled_i : s.sampled.i = s.i := s.arrive_i s.nextInput
@[simp] theorem State.sampled_r : s.sampled.r = s.r := s.arrive_r s.nextInput
@[simp] theorem State.sampled_iff1 : s.sampled.iff1 = s.iff1 := s.arrive_iff1 s.nextInput
@[simp] theorem State.sampled_iff2 : s.sampled.iff2 = s.iff2 := s.arrive_iff2 s.nextInput
@[simp] theorem State.sampled_im : s.sampled.im = s.im := s.arrive_im s.nextInput
@[simp] theorem State.sampled_noSample : s.sampled.noSample = s.noSample := s.arrive_noSample s.nextInput
@[simp] theorem State.sampled_mem : s.sampled.mem = s.mem := s.arrive_mem s.nextInput
@[simp] theorem State.sampled_memMap : s.sampled.memMap = s.memMap := s.arrive_memMap s.nextInput
@[simp] theorem State.sampled_params : s.sampled.params = s.params := s.arrive_params s.nextInput
@[simp] theorem State.sampled_cycleDma : s.sampled.cycleDma = s.cycleDma := s.arrive_cycleDma s.nextInput
@[simp] theorem State.sampled_busLog : s.sampled.busLog = s.busLog := s.arrive_busLog s.nextInput
@[simp] theorem State.sampled_inputs : s.sampled.inputs = s.inputs.tail := s.arrive_inputs s.nextInput
@[simp] theorem State.sampled_busGranted : s.sampled.busGranted = false := rfl
@[simp] theorem State.sampled_nmiPending : s.sampled.nmiPending = (s.nmiPending || s.nextInput.nmiEdge) :=
  s.arrive_nmiPending s.nextInput

end SampledFields

section Sampled
variable {s : State} (hr : s.nextInput.reset = false) (hb : s.nextInput.busreq = false)
include hr hb

theorem State.boundary_eq_sampled : s.boundary = s.sampled.sampleInterrupts s.nextInput :=
  State.boundary_eq_sample hr hb

/-- Nothing is accepted where the sampling is inhibited, or neither interrupt asks and is allowed (R500, R590). -/
theorem State.boundary_nothing (h : s.noSample = true ∨ (s.atBoundary.nmiPending = false ∧
      (s.iff1 = false ∨ s.atBoundary.intActive s.nextInput = false))) :
    s.boundary = .next { s.atBoundary with noSample := false, busGranted := false } := by
  rw [State.boundary_eq_sampled hr hb, State.sampleInterrupts_none]
  · rfl
  · rw [State.sampled_noSample, State.sampled_iff1]
    exact h

end Sampled

/-- Settles O7: an arrival is T states, events and the NMI latch; a boundary that may accept nothing samples nothing. -/
theorem nothingIsAcceptedUnlessAllowed : Obligations.NothingIsAcceptedUnlessAllowed := by
  refine ⟨fun s hr hb => State.boundary_nothing hr hb, fun s => State.atBoundary_of_inputs_nil, State.arrive_eq,
    fun s b quiet => ?noEvents, fun s b es e events => ?lastEvent, fun n j c p k b v => ?pins, State.intActive_iff⟩
  case noEvents =>
    rw [State.arrive_devices, State.arrive_draws, quiet]
    exact ⟨rfl, rfl⟩
  case lastEvent =>
    intro u
    rw [State.arrive_devices s b, State.arrive_draws s b, events, State.deviceEvents_append_singleton]
    exact ⟨rfl, rfl⟩
  case pins =>
    refine ⟨?_, ⟨rfl, rfl, rfl, rfl, rfl⟩, rfl, rfl, ?_, rfl, rfl, ?_, ?_⟩
    · simp only [List.forall_mem_cons]
      exact ⟨rfl, rfl, rfl, rfl, rfl, List.forall_mem_nil _⟩
    · cases b <;> rfl
    · simp only [List.forall_mem_cons]
      exact ⟨by cases b <;> rfl, by cases b <;> rfl, rfl, List.forall_mem_nil _⟩
    · simp only [List.forall_mem_cons]
      exact ⟨rfl, rfl, List.forall_mem_nil _⟩

/-! ### Taking an interrupt (R490, R502) -/

/-- A push seen as what memory holds after it (R422). -/
theorem TookTwo.pushedOn {s u t : State} {sp pc : Word}
    (h : TookTwo u t (sp - 1#16) (highByte pc) (sp - 2#16) (lowByte pc)) (mem : u.mem = s.mem)
    (map : u.memMap = s.memMap) : PushedOn s t sp pc := by
  obtain ⟨-, -, bytes⟩ := h
  intro a
  have distinct : sp - 2#16 ≠ sp - 1#16 := by bv_omega
  rw [bytes a, map, State.byteAt, State.byteAt, mem]
  by_cases low : a = sp - 2#16
  · rw [low, if_neg fun h => distinct h.1]
    simp only [true_and, distinct, false_and, if_false]
    rfl
  · rw [if_neg (c := a = sp - 2#16 ∧ _) fun h => low h.1, if_neg (c := a = sp - 2#16 ∧ _) fun h => low h.1]
    rfl

theorem State.enterInterrupt_busLog_nmi {s : State} (h : s.Undisturbed) (b : Byte) :
    (s.enterInterrupt .nonMaskable b).busLog = .opFetch s.pc (s.read8 s.pc) :: s.busLog := by
  have h' : State.Undisturbed { s with halted := false, iff1 := false, nmiPending := false } := h
  rw [State.enterInterrupt, State.afterFetch_eq h', State.logged_busLog, State.m1Cycle_busLog, State.answerMem_busLog]
  rfl

theorem State.enterInterrupt_busLog_int {s : State} (h : s.Undisturbed) (b : Byte) :
    (s.enterInterrupt .maskable b).busLog = .intAck (s.ackByte b) :: s.busLog := by
  have h' : State.Undisturbed { s with halted := false, iff1 := false, iff2 := false } := h
  rw [State.enterInterrupt, State.afterIntAck_eq h']
  rfl

/-- The entry at a boundary of the state s: what has arrived is sampled, and the response begins. -/
def State.entered (s : State) (k : InterruptKind) (b : Byte) : State := s.sampled.enterInterrupt k b

section Entered
variable {s : State} (k : InterruptKind) (b : Byte)

theorem State.sampled_undisturbed (hu : s.Undisturbed) : s.sampled.Undisturbed :=
  hu.congr (by simp) (by simp)

theorem State.entered_undisturbed (hu : s.Undisturbed) : (s.entered k b).Undisturbed :=
  (State.sampled_undisturbed hu).enterInterrupt k b

theorem State.entered_mem (hu : s.Undisturbed) : (s.entered k b).mem = s.mem := by
  rw [State.entered, State.enterInterrupt_mem k b (State.sampled_undisturbed hu), State.sampled_mem]

theorem State.entered_memMap : (s.entered k b).memMap = s.memMap := by
  simp [State.entered]

theorem State.entered_i : (s.entered k b).i = s.i := by
  simp [State.entered]

theorem State.entered_sp : (s.entered k b).sp = s.sp := by
  simp [State.entered]

theorem State.entered_pc : (s.entered k b).pc = s.pc := by
  simp [State.entered]

theorem State.entered_callTo_taken (hn : s.noSample = false) (target : Word) (n : Nat) :
    InterruptTaken s (((s.entered k b).callTo target).elapse n) := by
  simp [InterruptTaken, State.entered, hn, refreshed]

theorem State.entered_callVector_taken (hn : s.noSample = false) (v : Byte) (n : Nat) :
    InterruptTaken s (((s.entered k b).callVector v).elapse n) := by
  simp [InterruptTaken, State.entered, hn, refreshed]

theorem State.entered_push_took (hm : s.mem.wf = true) (hu : s.Undisturbed) :
    TookTwo { s.entered k b with sp := s.sp - 2#16 } ((s.entered k b).push16 s.pc) (s.sp - 1#16) (highByte s.pc)
      (s.sp - 2#16) (lowByte s.pc) := by
  have took := State.push16_took (State.entered_undisturbed k b hu) s.pc (by rw [State.entered_mem k b hu]; exact hm)
  rwa [State.entered_sp] at took

theorem State.entered_push_undisturbed (hm : s.mem.wf = true) (hu : s.Undisturbed) :
    ((s.entered k b).push16 s.pc).Undisturbed := by
  obtain ⟨rest, -⟩ := State.entered_push_took k b hm hu
  rw [rest]
  exact State.entered_undisturbed k b hu

theorem State.entered_push_busLog (hm : s.mem.wf = true) (hu : s.Undisturbed) :
    ((s.entered k b).push16 s.pc).busLog =
      .memWrite (s.sp - 2#16) (lowByte s.pc) :: .memWrite (s.sp - 1#16) (highByte s.pc) :: (s.entered k b).busLog := by
  obtain ⟨rest, -⟩ := State.entered_push_took k b hm hu
  rw [rest]

theorem State.entered_push_pushedOn (hm : s.mem.wf = true) (hu : s.Undisturbed) :
    PushedOn s ((s.entered k b).push16 s.pc) s.sp s.pc :=
  (State.entered_push_took k b hm hu).pushedOn (State.entered_mem k b hu) (State.entered_memMap k b)

theorem State.entered_callTo (target : Word) :
    (s.entered k b).callTo target = { (s.entered k b).push16 s.pc with pc := target } := by
  rw [State.callTo, State.entered_pc]

end Entered

/-- Settles O8: the response is an opcode fetch and a call of 0066H. -/
theorem nmiIsAccepted : Obligations.NmiIsAccepted := by
  intro s hm hu hr hrr hb hn asks
  have shadow : s.sampled.noSample = false := by rw [State.sampled_noSample, hn]
  have latched : s.sampled.nmiPending = true := by rw [State.sampled_nmiPending, Bool.or_eq_true]; exact asks
  have response : s.boundary = .next (((s.entered .nonMaskable 0#8).callTo nmiEntry).elapse nmiCost) := by
    rw [State.boundary_eq_sampled hr hb, State.sampleInterrupts_nmi shadow latched, State.accepted_eq _ hrr]
    rfl
  refine ⟨_, response, State.entered_callTo_taken _ _ hn _ _, ?stack, rfl, ?iff2, ?latch, ?log⟩
  case stack =>
    rw [State.entered_callTo]
    exact State.entered_push_pushedOn _ _ hm hu
  case iff2 => simp [State.entered]
  case latch => simp [State.entered]
  case log =>
    have opFetch : (s.entered .nonMaskable 0#8).busLog = .opFetch s.pc (s.atBoundary.read8 s.pc) :: s.busLog := by
      rw [State.entered, State.enterInterrupt_busLog_nmi (State.sampled_undisturbed hu), State.sampled_pc,
        State.sampled_busLog]
      rfl
    rw [State.entered_callTo, ← opFetch]
    exact State.entered_push_busLog _ _ hm hu

/-! ### Mode 2 (R510) -/

theorem State.afterRead8_mem_eq {s : State} (hu : s.Undisturbed) (a : Word) : (s.afterRead8 a).mem = s.mem := by
  rw [State.afterRead8_eq hu, State.logged_mem, State.answerMem_mem]

theorem State.afterRead8_busLog_eq {s : State} (hu : s.Undisturbed) (a : Word) :
    (s.afterRead8 a).busLog = .memRead a (s.read8 a) :: s.busLog := by
  rw [State.afterRead8_eq hu, State.logged_busLog, State.answerMem_busLog]

section Vector
variable {s : State} (hu : s.Undisturbed) (a : Word)
include hu

theorem State.afterRead16_mem_eq : (s.afterRead16 a).mem = s.mem := by
  rw [State.afterRead16, State.afterRead8_mem_eq (hu.afterRead8 a), State.afterRead8_mem_eq hu]

theorem State.afterRead16_busLog_eq : (s.afterRead16 a).busLog =
    .memRead (a + 1#16) ((s.afterRead8 a).read8 (a + 1#16)) :: .memRead a (s.read8 a) :: s.busLog := by
  rw [State.afterRead16, State.afterRead8_busLog_eq (hu.afterRead8 a), State.afterRead8_busLog_eq hu]

/-- The second read finds what memory held before the first. -/
theorem State.afterRead8_read8_plain {a' : Word} (plain : s.isPlain a') : (s.afterRead8 a).read8 a' = s.byteAt a' := by
  have map : (s.afterRead8 a).memMap = s.memMap := State.afterRead8_memMap s a
  rw [State.read8_plain (by rw [map]; exact plain), State.byteAt, State.afterRead8_mem_eq hu, State.byteAt]

end Vector

section Called
variable {s : State} (k : InterruptKind) (b v : Byte)

theorem State.entered_callVector :
    (s.entered k b).callVector v = { ((s.entered k b).push16 s.pc).afterRead16 (s.i ++ v) with
      pc := ((s.entered k b).push16 s.pc).read16 (s.i ++ v) } := by
  rw [State.callVector, State.entered_pc, State.entered_i]

theorem State.entered_callVector_mem (hm : s.mem.wf = true) (hu : s.Undisturbed) :
    ((s.entered k b).callVector v).mem = ((s.entered k b).push16 s.pc).mem := by
  rw [State.entered_callVector]
  exact State.afterRead16_mem_eq (State.entered_push_undisturbed k b hm hu) _

theorem State.entered_push_plain {a : Word} (h : s.isPlain a) : ((s.entered k b).push16 s.pc).isPlain a := by
  have map : ((s.entered k b).push16 s.pc).memMap = s.memMap := by rw [State.push16_memMap, State.entered_memMap]
  rw [State.isPlain, map]
  exact h

theorem State.entered_callVector_pushedOn (hm : s.mem.wf = true) (hu : s.Undisturbed) :
    PushedOn s ((s.entered k b).callVector v) s.sp s.pc := by
  intro a
  rw [State.byteAt, State.entered_callVector_mem k b v hm hu]
  exact State.entered_push_pushedOn k b hm hu a

/-- PC takes the word the two reads deliver; where it is RAM or ROM they find what memory holds after the response. -/
theorem State.entered_callVector_vector (hm : s.mem.wf = true) (hu : s.Undisturbed) :
    let t := (s.entered k b).callVector v
    let a := s.i ++ v
    ∃ lo hi : Byte, t.pc = hi ++ lo ∧
      t.busLog = .memRead (a + 1#16) hi :: .memRead a lo :: ((s.entered k b).push16 s.pc).busLog ∧
      (s.isPlain a → lo = t.byteAt a) ∧ (s.isPlain (a + 1#16) → hi = t.byteAt (a + 1#16)) := by
  intro t a
  let u := (s.entered k b).push16 s.pc
  have undisturbed : u.Undisturbed := State.entered_push_undisturbed k b hm hu
  have byteAt (x : Word) : t.byteAt x = u.byteAt x :=
    congrArg (Memory.read · x.toNat) (State.entered_callVector_mem k b v hm hu)
  refine ⟨u.read8 a, (u.afterRead8 a).read8 (a + 1#16), ?_, ?_, fun h => ?_, fun h => ?_⟩
  · simp only [t, State.entered_callVector]
    rfl
  · simp only [t, State.entered_callVector]
    exact State.afterRead16_busLog_eq undisturbed a
  · rw [byteAt]
    exact State.read8_plain (State.entered_push_plain k b h)
  · rw [byteAt]
    exact State.afterRead8_read8_plain undisturbed a (State.entered_push_plain k b h)

end Called

/-! ### Mode 0 (R506, log 8) -/

section Mode0
variable (s : State) {v : Byte}

theorem isRestart_iff (v : Byte) : isRestart v = true ↔ v &&& 0xC7#8 = 0xC7#8 := beq_iff_eq

theorem State.respondMode0_restart (h : isRestart v = true) :
    s.respondMode0 v = .next ((s.callTo (mode0Entry v)).elapse restartCost) := if_pos h

theorem State.respondMode0_not_listed (hv : isRestart v = false) (h : v ∉ s.params.mode0Extra) :
    s.respondMode0 v = .refused (.mode0Instruction v) := by
  simp [State.respondMode0, hv, h]

theorem State.respondMode0_not_whole (hv : isRestart v = false) {e : DecodeError} (h : decode [v] = .error e) :
    s.respondMode0 v = .refused (.mode0Instruction v) := by
  simp [State.respondMode0, hv, h]

theorem State.respondMode0_listed (hv : isRestart v = false) (hl : v ∈ s.params.mode0Extra) {i : Instr}
    {rest : List Byte} {w : State} (h : decode [v] = .ok (i, rest)) (he : exec i s = .next w) :
    s.respondMode0 v = .next (State.elapse { w with noSample := false } (instrCost i s + 2)) := by
  simp [State.respondMode0, hv, hl, h, he, ackWaits]

end Mode0

/-! ### The maskable interrupt -/

section MaskableResponse
variable {s : State} {v : Byte} (hr : s.nextInput.reset = false) (hrr : s.nextInput.resetsResponse = false)
  (hb : s.nextInput.busreq = false) (hn : s.noSample = false) (hp : s.atBoundary.nmiPending = false)
  (hi : s.iff1 = true) (ha : s.atBoundary.intActive s.nextInput = true)
  (hv : s.atBoundary.ackByte s.nextInput.busByte = v)
include hr hrr hb hn hp hi ha

theorem State.boundary_maskable : s.boundary = s.sampled.acceptInt s.nextInput.busByte := by
  rw [State.boundary_eq_sampled hr hb, State.sampleInterrupts_int (s := s.sampled) _ hp _ ha hrr]
  · rw [State.sampled_noSample, hn]
  · rw [State.sampled_iff1, hi]

include hv

theorem State.boundary_mode0 (hm : s.im = .mode0) :
    s.boundary = (s.entered .maskable s.nextInput.busByte).respondMode0 v := by
  rw [State.boundary_maskable hr hrr hb hn hp hi ha, State.acceptInt, State.sampled_im, hm, ← hv]
  rfl

omit hv in
theorem State.boundary_mode1 (hm : s.im = .mode1) :
    s.boundary = .next (((s.entered .maskable s.nextInput.busByte).callTo mode1Entry).elapse restartCost) := by
  rw [State.boundary_maskable hr hrr hb hn hp hi ha, State.acceptInt, State.sampled_im, hm]
  rfl

theorem State.boundary_mode2 (hm : s.im = .mode2) :
    s.boundary = .next (((s.entered .maskable s.nextInput.busByte).callVector v).elapse mode2Cost) := by
  rw [State.boundary_maskable hr hrr hb hn hp hi ha, State.acceptInt, State.sampled_im, hm, ← hv]
  rfl

end MaskableResponse

/-- The log of the acknowledge and the push. -/
theorem State.entered_int_busLog {s : State} {b v : Byte} (hm : s.mem.wf = true) (hu : s.Undisturbed)
    (hv : s.atBoundary.ackByte b = v) :
    ((s.entered .maskable b).push16 s.pc).busLog =
      .memWrite (s.sp - 2#16) (lowByte s.pc) :: .memWrite (s.sp - 1#16) (highByte s.pc) :: .intAck v :: s.busLog := by
  have acknowledged : (s.entered .maskable b).busLog = .intAck v :: s.busLog := by
    rw [State.entered, State.enterInterrupt_busLog_int (State.sampled_undisturbed hu), State.sampled_busLog, ← hv]
    rfl
  rw [State.entered_push_busLog _ _ hm hu, acknowledged]

/-- Settles O9: by what a mode 0 response can be, and by the push and the entry of each mode. -/
theorem maskableInterruptIsAccepted : Obligations.MaskableInterruptIsAccepted := by
  intro s v hm hu hr hrr hb hn hp hi ha hv
  have mode0 := State.boundary_mode0 hr hrr hb hn hp hi ha hv
  refine ⟨fun h0 notRestart => ?response, fun restart => ?entry⟩
  case response =>
    intro u
    have hw : isRestart v = false := by rw [← Bool.not_eq_true, isRestart_iff]; exact notRestart
    have params : u.params = s.params := (State.enterInterrupt_params s.sampled _ _).trans s.sampled_params
    rw [mode0 h0, ← params]
    exact ⟨State.respondMode0_not_listed u hw, fun e => State.respondMode0_not_whole u hw,
      fun i rest w listed => State.respondMode0_listed u hw listed⟩
  case entry =>
    intro pushed
    have log : ((s.entered .maskable s.nextInput.busByte).push16 s.pc).busLog = pushed :=
      State.entered_int_busLog hm hu hv
    have onStack := State.entered_push_pushedOn .maskable s.nextInput.busByte hm hu
    have disabled : (s.entered .maskable s.nextInput.busByte).iff2 = false := State.enterInterrupt_iff2_int _ _
    have called (target : Word) (n : Nat) :
        let t := ((s.entered .maskable s.nextInput.busByte).callTo target).elapse n
        PushedOn s t s.sp s.pc ∧ t.iff2 = false ∧ t.pc = target ∧ t.busLog = pushed := by
      intro t
      refine ⟨?_, by simp [t, disabled], rfl, ?_⟩
      · simp only [t, State.entered_callTo]; exact onStack
      · simp only [t, State.entered_callTo]; exact log
    cases him : s.im with
    | mode0 =>
      obtain ⟨stack, iff2, pc, busLog⟩ := called (mode0Entry v) restartCost
      have hw := (isRestart_iff v).2 (restart him)
      exact ⟨_, (mode0 him).trans (State.respondMode0_restart _ hw), State.entered_callTo_taken _ _ hn _ _, stack, iff2,
        fun _ => ⟨pc, busLog⟩, nofun, nofun⟩
    | mode1 =>
      obtain ⟨stack, iff2, pc, busLog⟩ := called mode1Entry restartCost
      exact ⟨_, State.boundary_mode1 hr hrr hb hn hp hi ha him, State.entered_callTo_taken _ _ hn _ _, stack, iff2,
        nofun, fun _ => ⟨pc, busLog⟩, nofun⟩
    | mode2 =>
      have stack := State.entered_callVector_pushedOn .maskable s.nextInput.busByte v hm hu
      have vector := State.entered_callVector_vector .maskable s.nextInput.busByte v hm hu
      rw [log] at vector
      exact ⟨_, State.boundary_mode2 hr hrr hb hn hp hi ha hv him, State.entered_callVector_taken _ _ hn _ _, stack,
        by simp [disabled], nofun, nofun, fun _ => vector⟩

end Sys2Proof.Machine

/-! ## The Halt state: O14 -/

namespace Sys2Proof.Machine

/-- A step of the Halt state is its NOP and the boundary (R530). -/
theorem step_of_halted {s : State} (hb : s.busGranted = false) (hh : s.halted = true) :
    step s = (s.afterFetch.elapse 4).boundary := by
  rw [step, hb, if_neg Bool.false_ne_true, hh, if_pos rfl, haltCost]

/-- The CPU is halted with the bus, at an address of RAM or ROM, and nothing from outside can end that. -/
structure State.Waiting (s : State) : Prop where
  busGranted : s.busGranted = false
  halted : s.halted = true
  inputs : s.inputs = []
  devices : s.devices = []
  nmiPending : s.nmiPending = false
  noSample : s.noSample = false
  undisturbed : s.Undisturbed
  plain : s.isPlain s.pc

/-- What k steps of the Halt state leave. -/
def State.afterHalt (k : Nat) (s : State) : State :=
  { s with r := refreshed k s.r, tStates := s.tStates + 4 * k
           busLog := List.replicate k (.opFetch s.pc (s.byteAt s.pc)) ++ s.busLog }

theorem State.Waiting.afterHalt {s : State} (h : s.Waiting) (k : Nat) : (s.afterHalt k).Waiting := { h with }

theorem State.afterHalt_zero (s : State) : s.afterHalt 0 = s := by
  rw [State.afterHalt, refreshed_zero]
  rfl

theorem State.afterHalt_afterHalt (s : State) (m n : Nat) : (s.afterHalt m).afterHalt n = s.afterHalt (m + n) := by
  have r : refreshed n (refreshed m s.r) = refreshed (m + n) s.r := by rw [refreshed_refreshed, Nat.add_comm]
  have tStates : s.tStates + 4 * m + 4 * n = s.tStates + 4 * (m + n) := by omega
  have busLog (e : BusEvent) : List.replicate n e ++ (List.replicate m e ++ s.busLog) =
      List.replicate (m + n) e ++ s.busLog := by
    rw [← List.append_assoc, List.replicate_append_replicate, Nat.add_comm]
  rw [State.afterHalt, State.afterHalt, State.afterHalt, ← r, ← tStates, ← busLog]
  rfl

/-- The NOP of the Halt state. -/
theorem State.Waiting.afterFetch {s : State} (h : s.Waiting) : s.afterFetch.elapse 4 = s.afterHalt 1 := by
  have noDevices (f : Device → Device) : s.devices.map f = s.devices := by rw [h.devices, List.map_nil]
  rw [State.afterFetch_eq h.undisturbed, State.answerMem_plain h.plain, State.read8_plain h.plain]
  unfold State.elapse State.m1Cycle State.logged State.afterHalt
  dsimp only
  rw [noDevices, noDevices]
  rfl

/-- And its boundary, where nothing arrives and nothing asks. -/
theorem State.Waiting.boundary {s : State} (h : s.Waiting) : s.boundary = .next s := by
  have quiet := State.nextInput_of_inputs_nil h.inputs
  have arrived := State.atBoundary_of_inputs_nil h.inputs
  have inactive : s.intActive BoundaryInput.quiet = false := by
    rw [State.intActive, State.chainRequests, h.devices]
    rfl
  have same : { s with noSample := false, busGranted := false } = s :=
    congrArg₂ (fun n b => { s with noSample := n, busGranted := b }) h.noSample.symm h.busGranted.symm
  have nothing := State.boundary_nothing (s := s) (by rw [quiet]; rfl) (by rw [quiet]; rfl)
  rw [arrived, quiet, same] at nothing
  exact nothing (.inr ⟨h.nmiPending, .inr inactive⟩)

theorem State.Waiting.step {s : State} (h : s.Waiting) : step s = .next (s.afterHalt 1) := by
  rw [step_of_halted h.busGranted h.halted, h.afterFetch, (h.afterHalt 1).boundary]

theorem State.Waiting.run {s : State} (h : s.Waiting) (k : Nat) : Sys2Proof.core.run k s = .next (s.afterHalt k) := by
  induction k generalizing s with
  | zero => exact congrArg Host.Outcome.next s.afterHalt_zero.symm
  | succ k ih => rw [run_succ h.step, ih (h.afterHalt 1), State.afterHalt_afterHalt, Nat.add_comm]

/-- Settles O14, by induction on the steps: each is one NOP and changes nothing that could end the Halt state. -/
theorem haltWaitsForAnInterrupt : Obligations.HaltWaitsForAnInterrupt :=
  ⟨fun _ => step_of_halted, fun k _ busGranted halted inputs devices nmiPending noSample undisturbed plain =>
    State.Waiting.run ⟨busGranted, halted, inputs, devices, nmiPending, noSample, undisturbed, plain⟩ k⟩

end Sys2Proof.Machine

/-! ## The CTC: O54, O55, O56 -/

namespace Sys2Proof.Machine

theorem channel_cases : ∀ k : BitVec 2, k = 0#2 ∨ k = 1#2 ∨ k = 2#2 ∨ k = 3#2 := by decide

/-! ### Zero counts (60_exceptions.md R561, R564) -/

/-- The count that leaves nothing to count (R561): the channel is loaded again, pulses, and requests if enabled. -/
def CtcChannel.zeroCount (x : CtcChannel) : CtcChannel :=
  { x with down := x.timeConstant, pending := x.pending || x.interruptEnabled, zeroCounts := x.zeroCounts + 1 }

theorem CtcChannel.count_of_last {x : CtcChannel} (h : x.down - 1#8 = 0#8) : x.count = x.zeroCount := if_pos h

theorem CtcChannel.count_of_more {x : CtcChannel} (h : x.down - 1#8 ≠ 0#8) :
    x.count = { x with down := x.down - 1#8 } :=
  if_neg h

theorem countOf_pos (v : Byte) : 0 < countOf v := by
  unfold countOf
  split
  · exact Nat.zero_lt_succ 255
  · next h => bv_omega

theorem sub_ofNat_ne_zero {v : Byte} {n : Nat} (pos : 0 < n) (h : n < countOf v) : v - BitVec.ofNat 8 n ≠ 0#8 := by
  unfold countOf at h
  split at h
  · next hv => subst hv; bv_omega
  · bv_omega

theorem sub_countOf (v : Byte) : v - BitVec.ofNat 8 (countOf v) = 0#8 := by
  unfold countOf
  split
  · next h => rw [h]; rfl
  · rw [BitVec.ofNat_toNat, BitVec.setWidth_eq, BitVec.sub_self]

theorem sub_ofNat_sub_one (v : Byte) (n : Nat) : v - BitVec.ofNat 8 n - 1#8 = v - BitVec.ofNat 8 (n + 1) := by
  rw [BitVec.ofNat_add, BitVec.sub_sub]

section Counts
variable {x : CtcChannel} (loaded : x.down = x.timeConstant)
include loaded

/-- Fewer counts than the time constant stands for only count down. -/
theorem CtcChannel.iterate_count {n : Nat} (h : n < countOf x.timeConstant) :
    CtcChannel.count^[n] x = { x with down := x.timeConstant - BitVec.ofNat 8 n } := by
  induction n with
  | zero => exact congrArg (fun v => { x with down := v }) (loaded.trans (BitVec.sub_zero _).symm)
  | succ n ih =>
    rw [Function.iterate_succ_apply', ih (by omega), CtcChannel.count_of_more]
    · rw [sub_ofNat_sub_one]
    · rw [sub_ofNat_sub_one]
      exact sub_ofNat_ne_zero n.succ_pos h

/-- As many counts as it stands for make one zero count. -/
theorem CtcChannel.iterate_count_countOf : CtcChannel.count^[countOf x.timeConstant] x = x.zeroCount := by
  obtain ⟨n, hn⟩ : ∃ n, countOf x.timeConstant = n + 1 := ⟨_, (Nat.succ_pred_eq_of_pos (countOf_pos _)).symm⟩
  rw [hn, Function.iterate_succ_apply', CtcChannel.iterate_count loaded (by omega), CtcChannel.count_of_last]
  · rfl
  · rw [sub_ofNat_sub_one, ← hn, sub_countOf]

theorem CtcChannel.zeroCount_eq : x.zeroCount =
    { x with pending := x.pending || x.control.getLsbD 7, zeroCounts := x.zeroCounts + 1 } := by
  rw [CtcChannel.zeroCount, ← loaded]
  rfl

end Counts

/-! ### A running timer (R563, R567) -/

/-- The channel counts clock periods. -/
def CtcChannel.RunsTimer (x : CtcChannel) : Prop := x.run = .counting ∧ x.counterMode = false

namespace CtcChannel.RunsTimer
variable {x : CtcChannel} (h : x.RunsTimer)
include h

theorem count : x.count.RunsTimer := by
  rw [RunsTimer, count_run, counterMode, count_control]
  exact h

theorem tick_eq : x.tick =
    if x.prescale + 1 < x.factor then { x with prescale := x.prescale + 1 }
    else CtcChannel.count { x with prescale := 0 } :=
  if_pos h

theorem tick : x.tick.RunsTimer := by
  rw [h.tick_eq]
  split
  · exact h
  · exact count (x := { x with prescale := 0 }) h

/-- A timer that runs takes no notice of CLK/TRG. -/
theorem activeEdge : x.activeEdge = x := by
  rw [CtcChannel.activeEdge, h.1]
  exact if_neg (by rw [h.2]; exact Bool.false_ne_true)

/-- The prescaler counts, up to its factor (R563 D5). -/
theorem iterate_tick {n : Nat} (hn : x.prescale + n < x.factor) :
    CtcChannel.tick^[n] x = { x with prescale := x.prescale + n } := by
  induction n with
  | zero => rfl
  | succ n ih =>
    rw [Function.iterate_succ_apply', ih (by omega)]
    exact (tick_eq (x := { x with prescale := x.prescale + n }) h).trans (if_pos hn)

/-- A round of the prescaler is one count. -/
theorem iterate_tick_factor (fresh : x.prescale = 0) : CtcChannel.tick^[x.factor] x = x.count := by
  have pos : 0 < x.factor := by unfold factor; split <;> exact Nat.zero_lt_succ _
  obtain ⟨n, hn⟩ : ∃ n, x.factor = n + 1 := ⟨_, (Nat.succ_pred_eq_of_pos pos).symm⟩
  have full : ¬ x.prescale + n + 1 < x.factor := by omega
  rw [hn, Function.iterate_succ_apply', h.iterate_tick (by omega)]
  refine (tick_eq (x := { x with prescale := x.prescale + n }) h).trans ((if_neg full).trans ?_)
  rw [← fresh]

/-- So the timer counts once in so many clock periods as the factor says. -/
theorem iterate_tick_mul (fresh : x.prescale = 0) (m : Nat) :
    CtcChannel.tick^[x.factor * m] x = CtcChannel.count^[m] x := by
  induction m generalizing x with
  | zero => rfl
  | succ m ih =>
    have factor : x.count.factor = x.factor := by rw [CtcChannel.factor, count_control, CtcChannel.factor]
    rw [Nat.mul_succ, Function.iterate_add_apply, h.iterate_tick_factor fresh, Function.iterate_succ_apply, ← factor]
    exact ih h.count (by rw [count_prescale, fresh])

/-- Short of the interval it is at some count and some prescale, and no zero count has come. -/
theorem iterate_tick_of_lt (fresh : x.prescale = 0) (loaded : x.down = x.timeConstant) {t : Nat}
    (ht : t < x.factor * countOf x.timeConstant) :
    CtcChannel.tick^[t] x =
      { x with down := x.timeConstant - BitVec.ofNat 8 (t / x.factor), prescale := t % x.factor } := by
  have counted := iterate_count loaded (Nat.div_lt_of_lt_mul ht)
  have within : t % x.factor < x.factor := Nat.mod_lt _ (Nat.pos_of_mul_pos_right (Nat.zero_lt_of_lt ht))
  calc CtcChannel.tick^[t] x
    _ = CtcChannel.tick^[t % x.factor] (CtcChannel.tick^[x.factor * (t / x.factor)] x) := by
      rw [← Function.iterate_add_apply, Nat.mod_add_div]
    _ = _ := by
      rw [h.iterate_tick_mul fresh, counted]
      refine (iterate_tick (x := { x with down := x.timeConstant - BitVec.ofNat 8 (t / x.factor) }) h ?_).trans ?_
      · rw [fresh, Nat.zero_add]; exact within
      · rw [fresh, Nat.zero_add]

end CtcChannel.RunsTimer

/-! ### The chip: no pulse disturbs a timer that runs (R563, R567) -/

section Chip
variable {c : Ctc} {k : BitVec 2}

theorem Ctc.drive_activeEdge_channel (n : Nat) (j : BitVec 2) (h : (c.channel k).RunsTimer) :
    (c.drive n j CtcChannel.activeEdge).channel k = c.channel k := by
  induction n generalizing c j with
  | zero => rfl
  | succ n ih =>
    have own : (c.setChannel j (c.channel j).activeEdge).channel k = c.channel k := by
      rw [Ctc.channel_setChannel]
      split
      · next e => rw [← e, h.activeEdge]
      · rfl
    unfold Ctc.drive
    dsimp only
    split
    · exact own
    · refine List.foldlRecOn (motive := fun d : Ctc => d.channel k = c.channel k) _ _ own fun d hd i _ => ?_
      split
      · rw [ih i (by rw [hd]; exact h), hd]
      · exact hd

/-- What happens to channel j leaves a running timer at most with what happened to it itself. -/
theorem Ctc.update_channel {f : CtcChannel → CtcChannel} (j : BitVec 2)
    (h : (if k = j then f (c.channel j) else c.channel k).RunsTimer) :
    (c.update j f).channel k = if k = j then f (c.channel j) else c.channel k := by
  have own : (c.setChannel j (f (c.channel j))).channel k = if k = j then f (c.channel j) else c.channel k :=
    Ctc.channel_setChannel j k _ c
  unfold Ctc.update Ctc.drive
  dsimp only
  split
  · exact own
  · rw [← own] at h ⊢
    refine List.foldlRecOn (motive := fun d : Ctc => d.channel k = (c.setChannel j (f (c.channel j))).channel k) _ _ rfl
      fun d hd i _ => ?_
    split
    · rw [Ctc.drive_activeEdge_channel 4 i (by rw [hd]; exact h), hd]
    · exact hd

theorem Ctc.update_tick_channel (h : (c.channel k).RunsTimer) (j : BitVec 2) :
    (c.update j CtcChannel.tick).channel k = if k = j then (c.channel k).tick else c.channel k := by
  by_cases e : k = j
  · subst e
    rw [Ctc.update_channel k (by rw [if_pos rfl]; exact h.tick), if_pos rfl]
  · rw [Ctc.update_channel j (by rw [if_neg e]; exact h), if_neg e, if_neg e]

theorem Ctc.foldl_update_tick_channel {l : List (BitVec 2)} (distinct : l.Nodup) (h : (c.channel k).RunsTimer) :
    (l.foldl (fun d j => d.update j CtcChannel.tick) c).channel k =
      if k ∈ l then (c.channel k).tick else c.channel k := by
  induction l generalizing c with
  | nil => rfl
  | cons j l ih =>
    obtain ⟨hj, hl⟩ := List.nodup_cons.1 distinct
    have one := Ctc.update_tick_channel h j
    by_cases e : k = j
    · rw [if_pos e] at one
      rw [List.foldl_cons, ih hl (by rw [one]; exact h.tick), one, if_neg (by rw [e]; exact hj), if_pos (by simp [e])]
    · rw [if_neg e] at one
      rw [List.foldl_cons, ih hl (by rw [one]; exact h), one]
      simp [e]

/-- A clock period is one for each of the four channels. -/
theorem Ctc.tick_channel (h : (c.channel k).RunsTimer) : c.tick.channel k = (c.channel k).tick := by
  have all : ∀ k : BitVec 2, k ∈ [0#2, 1#2, 2#2, 3#2] := by decide
  have distinct : [0#2, 1#2, 2#2, 3#2].Nodup := by decide
  exact (Ctc.foldl_update_tick_channel distinct h).trans (if_pos (all k))

theorem Ctc.clock_channel (h : (c.channel k).RunsTimer) (t : Nat) :
    (c.clock t).channel k = CtcChannel.tick^[t] (c.channel k) := by
  induction t generalizing c with
  | zero => rfl
  | succ t ih =>
    have one := Ctc.tick_channel h
    rw [Ctc.clock, ih (by rw [one]; exact h.tick), one, Function.iterate_succ_apply]

end Chip

/-- Settles O54: the chip clocks a running timer as if it were alone; a round of the prescaler is one count, and as many
counts as the time constant stands for are one zero count. -/
theorem ctcTimerInterval : Obligations.CtcTimerInterval := by
  intro c k x periods run timer fresh loaded
  have runs : x.RunsTimer := ⟨run, timer⟩
  have clocked (t : Nat) : (c.clock t).channel k = CtcChannel.tick^[t] x := Ctc.clock_channel runs t
  have interval : periods = x.factor * countOf x.timeConstant := rfl
  refine ⟨fun t ht => ?before, ?last⟩
  case before =>
    rw [clocked, runs.iterate_tick_of_lt fresh loaded ht]
    exact ⟨rfl, rfl⟩
  case last =>
    rw [clocked, interval, runs.iterate_tick_mul fresh, CtcChannel.iterate_count_countOf loaded,
      CtcChannel.zeroCount_eq loaded]

/-! ### Counter mode and the trigger (R563, R564) -/

namespace CtcChannel
variable {x : CtcChannel}

theorem activeEdge_of_stopped (h : x.run = .stopped) : x.activeEdge = x := by rw [activeEdge, h]

theorem activeEdge_of_waiting (h : x.run = .waiting) : x.activeEdge =
    if x.counterMode then count { x with run := .counting } else { x with run := .counting, prescale := 0 } := by
  rw [activeEdge, h]

theorem activeEdge_of_counting (h : x.run = .counting) : x.activeEdge = if x.counterMode then x.count else x := by
  rw [activeEdge, h]

/-- In timer mode an edge is a trigger. -/
theorem activeEdge_of_timer (h : x.counterMode = false) :
    x.activeEdge = if x.run = .waiting then { x with run := .counting, prescale := 0 } else x := by
  cases hr : x.run with
  | stopped => exact activeEdge_of_stopped hr
  | waiting => rw [activeEdge_of_waiting hr, h, if_neg Bool.false_ne_true, if_pos rfl]
  | counting => rw [activeEdge_of_counting hr, h, if_neg Bool.false_ne_true, if_neg nofun]

/-- In counter mode it is a count. -/
theorem iterate_activeEdge (hr : x.run = .counting) (hc : x.counterMode = true) (n : Nat) :
    activeEdge^[n] x = count^[n] x := by
  induction n generalizing x with
  | zero => rfl
  | succ n ih =>
    rw [Function.iterate_succ_apply, Function.iterate_succ_apply, activeEdge_of_counting hr, hc, if_pos rfl]
    exact ih (by rw [count_run, hr]) (by rw [counterMode, count_control]; exact hc)

theorem tick_of_idle (h : x.run ≠ .counting ∨ x.counterMode = true) : x.tick = x := by
  refine if_neg fun ⟨runs, timer⟩ => ?_
  rcases h with h | h
  · exact h runs
  · rw [timer] at h; exact Bool.false_ne_true h

theorem count_eq (x : CtcChannel) : x.count =
    if x.down = 1#8 then { x with down := x.timeConstant, pending := x.pending || x.control.getLsbD 7
                                  zeroCounts := x.zeroCounts + 1 }
    else { x with down := x.down - 1#8 } :=
  ite_congr (propext (byte_sub_one_eq_zero_iff x.down)) (fun _ => rfl) fun _ => rfl

/-! Nothing rewires a channel (R561, log 20). -/

theorem clkTrg_source (rising : Bool) (x : CtcChannel) : (x.clkTrg rising).source = x.source := by
  unfold clkTrg
  split
  · exact activeEdge_source x
  · rfl

theorem tick_source (x : CtcChannel) : x.tick.source = x.source := by
  unfold tick
  split
  · split
    · rfl
    · rw [count_source]
  · rfl

theorem write_source (v : Byte) (x : CtcChannel) : (x.write v).source = x.source := by
  unfold write
  split
  · unfold loadConstant
    split <;> rfl
  · split
    · unfold setControl
      dsimp only
      split
      · rfl
      · split
        · rfl
        · rw [activeEdge_source]
    · rfl

end CtcChannel

/-! ### Where a ZC/TO pulse goes (R561, log 20) -/

section Pulse
variable {c : Ctc} {k : BitVec 2} {f : CtcChannel → CtcChannel}

/-- Channel 3 has no such output, and without a zero count there is no pulse. -/
theorem Ctc.update_of_no_pulse (h : k = 3#2 ∨ (f (c.channel k)).zeroCounts = (c.channel k).zeroCounts) :
    c.update k f = c.setChannel k (f (c.channel k)) := by
  have own : (c.setChannel k (f (c.channel k))).channel k = f (c.channel k) := by
    rw [Ctc.channel_setChannel, if_pos rfl]
  rw [← own] at h
  exact if_pos h

/-- The pulse of channel k as channel j of d meets it, the pulses it makes in turn followed n channels deep. -/
def Ctc.pulsed (n : Nat) (k j : BitVec 2) (d : Ctc) : Ctc :=
  if (d.channel j).source = some k then d.drive n j CtcChannel.activeEdge else d

theorem Ctc.update_of_pulse (hk : k ≠ 3#2) (h : (f (c.channel k)).zeroCounts ≠ (c.channel k).zeroCounts) :
    c.update k f =
      Ctc.pulsed 4 k 3#2 (Ctc.pulsed 4 k 2#2 (Ctc.pulsed 4 k 1#2 (Ctc.pulsed 4 k 0#2
        (c.setChannel k (f (c.channel k)))))) := by
  have own : (c.setChannel k (f (c.channel k))).channel k = f (c.channel k) := by
    rw [Ctc.channel_setChannel, if_pos rfl]
  rw [← own] at h
  exact if_neg (not_or.2 ⟨hk, h⟩)

theorem Ctc.update_of_unwired_output (hf : ∀ x, (f x).source = x.source) (h : ∀ i, (c.channel i).source ≠ some k) :
    c.update k f = c.setChannel k (f (c.channel k)) :=
  Ctc.update_of_unwired k f c fun i => by rw [Ctc.setChannel_source hf]; exact h i

/-- What happens to a channel that pulses nothing of its own is what happens to it alone. -/
theorem Ctc.update_alone (hf : ∀ x, (f x).source = x.source)
    (h : k = 3#2 ∨ (f (c.channel k)).zeroCounts = (c.channel k).zeroCounts ∨ ∀ i, (c.channel i).source ≠ some k) :
    c.update k f = c.setChannel k (f (c.channel k)) := by
  rcases h with h | h | h
  · exact Ctc.update_of_no_pulse (.inl h)
  · exact Ctc.update_of_no_pulse (.inr h)
  · exact Ctc.update_of_unwired_output hf h

/-- The two chips are wired alike. -/
def Ctc.WiredAs (c d : Ctc) : Prop := ∀ i, (d.channel i).source = (c.channel i).source

theorem Ctc.WiredAs.drive {d : Ctc} (h : c.WiredAs d) (n : Nat) (j : BitVec 2) :
    c.WiredAs (d.drive n j CtcChannel.activeEdge) := fun i =>
  (Ctc.drive_source n CtcChannel.activeEdge_source j i d).trans (h i)

theorem Ctc.wiredAs_setChannel (hf : ∀ x, (f x).source = x.source) : c.WiredAs (c.setChannel k (f (c.channel k))) :=
  fun i => Ctc.setChannel_source hf k i c

theorem Ctc.WiredAs.setChannel_activeEdge {d : Ctc} (h : c.WiredAs d) (j : BitVec 2) :
    c.WiredAs (d.setChannel j (d.channel j).activeEdge) := fun i =>
  (Ctc.wiredAs_setChannel CtcChannel.activeEdge_source i).trans (h i)

theorem Ctc.WiredAs.pulsed_of_not_wired {d : Ctc} (h : c.WiredAs d) {j : BitVec 2} (n : Nat)
    (hj : (c.channel j).source ≠ some k) : d.pulsed n k j = d := if_neg (by rw [h j]; exact hj)

/-- At a channel that drives no other one, a pulse is an active edge. -/
theorem Ctc.WiredAs.pulsed_of_last {d : Ctc} (h : c.WiredAs d) {j : BitVec 2} (n : Nat)
    (hj : (c.channel j).source = some k) (last : ∀ i, (c.channel i).source ≠ some j) :
    d.pulsed (n + 1) k j = d.setChannel j (d.channel j).activeEdge := by
  rw [Ctc.pulsed, if_pos (by rw [h j]; exact hj)]
  exact Ctc.drive_of_unwired n j _ d fun i => by rw [h.setChannel_activeEdge j i]; exact last i

/-- One channel alone is wired to channel k, and none to it. -/
theorem Ctc.update_of_one_wired {j : BitVec 2} (hf : ∀ x, (f x).source = x.source) (hk : k ≠ 3#2) (hj : j ≠ k)
    (one : ∀ i, (c.channel i).source = some k ↔ i = j) (last : ∀ i, (c.channel i).source ≠ some j) :
    c.update k f =
      if (f (c.channel k)).zeroCounts = (c.channel k).zeroCounts then c.setChannel k (f (c.channel k))
      else (c.setChannel k (f (c.channel k))).setChannel j (c.channel j).activeEdge := by
  split
  · next h => exact Ctc.update_of_no_pulse (.inr h)
  · next h =>
    have same : (c.setChannel k (f (c.channel k))).channel j = c.channel j := by
      rw [Ctc.channel_setChannel, if_neg hj]
    have before : c.WiredAs (c.setChannel k (f (c.channel k))) := Ctc.wiredAs_setChannel hf
    have behind := before.setChannel_activeEdge j
    have reached := before.pulsed_of_last 3 ((one j).2 rfl) last
    have passed (d : Ctc) (hd : c.WiredAs d) (i : BitVec 2) (hi : i ≠ j) : d.pulsed 4 k i = d :=
      hd.pulsed_of_not_wired 4 fun e => hi ((one i).1 e)
    rw [same] at reached behind
    rw [Ctc.update_of_pulse hk h]
    rcases channel_cases j with rfl | rfl | rfl | rfl
    · rw [reached, passed _ behind 1#2 (by decide), passed _ behind 2#2 (by decide), passed _ behind 3#2 (by decide)]
    · rw [passed _ before 0#2 (by decide), reached, passed _ behind 2#2 (by decide), passed _ behind 3#2 (by decide)]
    · rw [passed _ before 0#2 (by decide), passed _ before 1#2 (by decide), reached, passed _ behind 3#2 (by decide)]
    · rw [passed _ before 0#2 (by decide), passed _ before 1#2 (by decide), passed _ before 2#2 (by decide), reached]

/-- Where the wiring runs in no circle, following a pulse four channels deep is following it to its end. -/
theorem Ctc.WiredAs.pulsed_eq {d : Ctc} (h : c.WiredAs d) {depth : BitVec 2 → Nat} (h4 : ∀ i, depth i < 4)
    (hd : ∀ i j, j ≠ 3#2 → (c.channel i).source = some j → depth j < depth i) (j : BitVec 2) :
    d.pulsed 4 k j = if (c.channel j).source = some k then d.update j CtcChannel.activeEdge else d := by
  have deep : d.drive 4 j CtcChannel.activeEdge = d.update j CtcChannel.activeEdge :=
    Ctc.drive_depth h4 4 5 CtcChannel.activeEdge_source j d (fun i j hj hs => hd i j hj (by rw [← h i]; exact hs))
      (by omega) (by omega)
  rw [Ctc.pulsed, h j, deep]

end Pulse

/-- Settles O55: an edge by the channel's state, and a pulse by what is wired to it. -/
theorem ctcCounting : Obligations.CtcCounting := by
  refine ⟨fun x hr hc loaded => ?counter, fun _ _ => rfl, fun x => CtcChannel.activeEdge_of_timer,
    fun x hc hr => ?waiting, fun x => CtcChannel.activeEdge_of_stopped, fun x => CtcChannel.tick_of_idle, fun x hr ht => ?timer,
    fun _ _ _ => ⟨rfl, rfl⟩, fun x rising v => ⟨x.clkTrg_source rising, x.tick_source, x.write_source v⟩,
    fun c k j f hf hk hj one last => Ctc.update_of_one_wired hf hk hj one last,
    fun c k f depth hf h4 hd hk pulse => ?chain,
    fun c k f hf => Ctc.update_alone hf⟩
  case counter =>
    have counts (n : Nat) := CtcChannel.iterate_activeEdge hr hc n
    refine ⟨fun t ht => ?_, ?_⟩
    · rw [counts, CtcChannel.iterate_count loaded ht]
      exact ⟨rfl, rfl⟩
    · rw [counts, CtcChannel.iterate_count_countOf loaded, CtcChannel.zeroCount_eq loaded]
  case waiting =>
    rw [CtcChannel.activeEdge_of_waiting hr, CtcChannel.activeEdge_of_counting (x := { x with run := .counting }) rfl]
    exact (if_pos hc).trans (if_pos hc).symm
  case timer =>
    rw [CtcChannel.RunsTimer.tick_eq ⟨hr, ht⟩, CtcChannel.count_eq]
    rfl
  case chain =>
    intro wired
    have followed (d : Ctc) (h : c.WiredAs d) (j : BitVec 2) : d.pulsed 4 k j = wired j d := h.pulsed_eq h4 hd j
    have kept (d : Ctc) (h : c.WiredAs d) (j : BitVec 2) : c.WiredAs (wired j d) := by
      unfold wired
      split
      · exact h.drive 5 j
      · exact h
    have at0 : c.WiredAs (c.setChannel k (f (c.channel k))) := Ctc.wiredAs_setChannel hf
    have at1 := kept _ at0 0#2
    have at2 := kept _ at1 1#2
    have at3 := kept _ at2 2#2
    rw [Ctc.update_of_pulse hk pulse, followed _ at0, followed _ at1, followed _ at2, followed _ at3]

/-! ### Programming (R562, R563, R566) -/

/-- A time constant (R562, R564). -/
theorem CtcChannel.write_of_constantNext {x : CtcChannel} (h : x.constantNext = true) (v : Byte) : x.write v =
    if x.run = .counting then { x with timeConstant := v, constantNext := false }
    else
      { x with timeConstant := v, constantNext := false, down := v, prescale := 0
               run := if x.control.getLsbD 6 = false ∧ x.control.getLsbD 3 = true then .waiting else .counting } := by
  have waits : (x.externalTrigger && !x.counterMode) = true ↔
      x.control.getLsbD 6 = false ∧ x.control.getLsbD 3 = true := by
    rw [Bool.and_eq_true, Bool.not_eq_true', and_comm]
    rfl
  rw [CtcChannel.write, if_pos h, CtcChannel.loadConstant, if_congr waits rfl rfl]

/-- A control word (R563). -/
theorem CtcChannel.write_of_control {x : CtcChannel} (h : x.constantNext = false) {v : Byte}
    (hv : v.getLsbD 0 = true) : x.write v = x.setControl v := by
  rw [CtcChannel.write, h, if_neg Bool.false_ne_true, if_pos hv]

theorem CtcChannel.write_of_vector {x : CtcChannel} (h : x.constantNext = false) {v : Byte}
    (hv : v.getLsbD 0 = false) : x.write v = x := by
  rw [CtcChannel.write, h, hv, if_neg Bool.false_ne_true, if_neg Bool.false_ne_true]

/-- A byte that is no vector word reaches the channel (R562, R565). -/
theorem Ctc.write_of_not_vector {c : Ctc} {k : BitVec 2} {v : Byte}
    (h : k ≠ 0#2 ∨ c.ch0.constantNext = true ∨ v.getLsbD 0 = true) : c.write k v = c.update k (CtcChannel.write v) := by
  refine if_neg fun ⟨first, constant, vector⟩ => ?_
  rcases h with h | h | h
  · exact h first
  · rw [constant] at h; exact Bool.false_ne_true h
  · rw [vector] at h; exact Bool.false_ne_true h

/-- The vector of a channel: the vector register, and the channel's number in bits 2 and 1 (R565). -/
theorem Ctc.vectorOf_eq (c : Ctc) (k : BitVec 2) :
    c.vectorOf k = (c.vector &&& 0xF8#8) ||| BitVec.ofNat 8 (2 * k.toNat) := by
  have number : BitVec.ofNat 8 (2 * k.toNat) = 0#5 ++ k ++ 0#1 := by
    rcases channel_cases k with rfl | rfl | rfl | rfl <;> rfl
  apply BitVec.eq_of_getLsbD_eq
  intro i hi
  have mask : (0xF8#8).getLsbD i = decide (3 ≤ i) := by interval_cases i <;> rfl
  rw [number, Ctc.vectorOf, BitVec.getLsbD_or, BitVec.getLsbD_and, mask]
  simp only [BitVec.getLsbD_append, BitVec.getLsbD_extractLsb']
  by_cases programmed : 3 ≤ i
  · have above : ¬ i < 1 ∧ ¬ i - 1 < 2 ∧ i - 1 - 2 < 5 := by omega
    have place : 3 + (i - 1 - 2) = i := by omega
    simp [programmed, above, place]
  · have field : i ≤ 2 := by omega
    simp [programmed, field]

/-! ### The reset (R566, R573) -/

theorem Ctc.hardReset_channel (c : Ctc) (draw : Nat → Byte) (k : BitVec 2) : (c.hardReset draw).channel k =
    (c.channel k).hardReset (draw (2 * k.toNat)) (draw (2 * k.toNat + 1)) := by
  rcases channel_cases k with rfl | rfl | rfl | rfl <;> rfl

/-- Each device is reset with nine drawn bytes of its own (log 22). -/
theorem resetDevices_getElem? (draw : Nat → Byte) (ds : List Device) (n : Nat) :
    (resetDevices draw ds)[n]? = ds[n]?.map (Device.hardReset fun i => draw (i + 9 * n)) := by
  induction ds generalizing draw n with
  | nil => rfl
  | cons d ds ih =>
    cases n with
    | zero => rfl
    | succ n =>
      have drawn (i : Nat) : i + 9 * n + 9 = i + 9 * (n + 1) := by omega
      rw [resetDevices, List.getElem?_cons_succ, ih, List.getElem?_cons_succ]
      simp only [drawn]

theorem State.hardReset_getElem? {s : State} {n : Nat} {d : Device} (h : s.devices[n]? = some d) :
    ∃ draw, s.hardReset.devices[n]? = some (d.hardReset draw) :=
  ⟨_, (resetDevices_getElem? _ s.devices n).trans (by rw [h]; rfl)⟩

/-- Settles O56: a byte by what the channel awaits and its bits D0 and D1. -/
theorem ctcProgramming : Obligations.CtcProgramming := by
  refine ⟨fun x v h => CtcChannel.write_of_constantNext h v, fun x v h hv => CtcChannel.write_of_control h hv,
    fun x v h hv => CtcChannel.write_of_vector h hv, fun c v constant vector => if_pos ⟨rfl, constant, vector⟩,
    fun c k v h => ?port,
    fun x => ⟨rfl, rfl, rfl⟩, fun c k => ⟨c.vectorOf_eq k, rfl⟩, fun c draw k => ⟨c.hardReset_channel draw k, rfl, rfl⟩,
    fun s n c h => ?reset⟩
  case port =>
    have reached := Ctc.write_of_not_vector h
    exact ⟨reached, fun alone => reached.trans (Ctc.update_alone (CtcChannel.write_source v) alone)⟩
  case reset =>
    obtain ⟨draw, hd⟩ := State.hardReset_getElem? h
    split
    · next wired => exact ⟨draw, by rw [hd, Device.hardReset, if_pos wired]⟩
    · next unwired => rw [hd, Device.hardReset, if_neg unwired]

end Sys2Proof.Machine

/-! ## The interrupt daisy chain: O57 -/

namespace Sys2Proof.Machine

/-! ### The slots (60_exceptions.md R515, R565) -/

theorem chain_cons (d : Device) (ds : List Device) : chain (d :: ds) = d.slots ++ chain ds := List.flatMap_cons

theorem Device.slots_ctc (c : Ctc) (k : BitVec 2) :
    (Device.ctc c).slots[k.toNat]? = some ((c.channel k).slot (c.vectorOf k)) := by
  rcases channel_cases k with rfl | rfl | rfl | rfl <;> rfl

/-- A slot with its request and its service set anew. -/
def Slot.setTo (pending underService : Bool) (x : Slot) : Slot :=
  { x with pending := pending, underService := underService }

theorem Device.slots_setSlot {d : Device} {k : Nat} {x : Slot} (h : d.slots[k]? = some x)
    (pending underService : Bool) :
    (d.setSlot k pending underService).slots = d.slots.set k (x.setTo pending underService) := by
  obtain ⟨hk, rfl⟩ := List.getElem?_eq_some_iff.1 h
  cases d with
  | ctc c =>
    have four : k < 4 := hk
    interval_cases k <;> rfl
  | pio p =>
    have two : k < 2 := hk
    interval_cases k <;> rfl

/-- Setting a slot of the chain sets that slot and no other. -/
theorem chain_setChainSlot {ds : List Device} {k : Nat} {x : Slot} (h : (chain ds)[k]? = some x)
    (pending underService : Bool) :
    chain (setChainSlot k pending underService ds) = (chain ds).set k (x.setTo pending underService) := by
  induction ds generalizing k with
  | nil => cases h
  | cons d ds ih =>
    rw [chain_cons, List.getElem?_append] at h
    unfold setChainSlot
    split
    · next hk =>
      rw [if_pos hk] at h
      rw [chain_cons, chain_cons, Device.slots_setSlot h, List.set_append, if_pos hk]
    · next hk =>
      rw [if_neg hk] at h
      rw [chain_cons, chain_cons, ih h, List.set_append, if_neg hk]

/-! ### Which slot requests, and which is released (R516 to R518) -/

theorem Slot.passes_iff (x : Slot) : x.passes = true ↔ x.underService = false ∧ x.pending = false := by
  rw [Slot.passes, Bool.and_eq_true, Bool.not_eq_true', Bool.not_eq_true']

/-- The converse of `requester_eq_some`. -/
theorem requester_of_first {xs : List Slot} {k : Nat} {x : Slot} (hx : xs[k]? = some x) (asks : x.pending = true)
    (enabled : x.enabled = true) (before : ∀ j y, j < k → xs[j]? = some y → y.passes = true) :
    requester xs = some k := by
  induction xs generalizing k with
  | nil => cases hx
  | cons z t ih =>
    unfold requester
    cases k with
    | zero =>
      obtain rfl : z = x := Option.some.inj hx
      rw [asks, enabled, Bool.and_self, if_pos rfl]
    | succ k =>
      have passes : z.passes = true := before 0 z k.succ_pos rfl
      obtain ⟨-, silent⟩ := z.passes_iff.1 passes
      rw [silent, Bool.false_and, if_neg Bool.false_ne_true, if_pos passes,
        ih hx fun j y hj => before (j + 1) y (Nat.succ_lt_succ hj)]
      rfl

theorem requester_iff (xs : List Slot) (k : Nat) : requester xs = some k ↔
    (∃ x, xs[k]? = some x ∧ x.pending = true ∧ x.enabled = true) ∧
      ∀ j y, j < k → xs[j]? = some y → y.underService = false ∧ y.pending = false := by
  refine ⟨fun h => ?_, fun ⟨⟨x, hx, asks, enabled⟩, before⟩ => ?_⟩
  · obtain ⟨x, hx, asks, enabled, before⟩ := requester_eq_some xs k h
    exact ⟨⟨x, hx, asks, enabled⟩, fun j y hj hy => y.passes_iff.1 (before j y hj hy)⟩
  · exact requester_of_first hx asks enabled fun j y hj hy => y.passes_iff.2 (before j y hj hy)

/-- The converse of `inService_eq_some`. -/
theorem inService_of_first {xs : List Slot} {k : Nat} {x : Slot} (hx : xs[k]? = some x) (served : x.underService = true)
    (before : ∀ j y, j < k → xs[j]? = some y → y.underService = false) : inService xs = some k := by
  induction xs generalizing k with
  | nil => cases hx
  | cons z t ih =>
    unfold inService
    cases k with
    | zero =>
      obtain rfl : z = x := Option.some.inj hx
      rw [served, if_pos rfl]
    | succ k =>
      rw [before 0 z k.succ_pos rfl, if_neg Bool.false_ne_true,
        ih hx fun j y hj => before (j + 1) y (Nat.succ_lt_succ hj)]
      rfl

theorem inService_iff (xs : List Slot) (k : Nat) : inService xs = some k ↔
    (∃ x, xs[k]? = some x ∧ x.underService = true) ∧ ∀ j y, j < k → xs[j]? = some y → y.underService = false := by
  refine ⟨fun h => ?_, fun ⟨⟨x, hx, served⟩, before⟩ => inService_of_first hx served before⟩
  obtain ⟨x, hx, served, before⟩ := inService_eq_some xs k h
  exact ⟨⟨x, hx, served⟩, before⟩

/-- A slot under service keeps every lower one from requesting (R516, R519). -/
theorem requester_le {xs : List Slot} {j k : Nat} {y : Slot} (hy : xs[j]? = some y) (served : y.underService = true)
    (h : requester xs = some k) : k ≤ j := by
  by_contra lower
  obtain ⟨-, before⟩ := (requester_iff xs k).1 h
  obtain ⟨idle, -⟩ := before j y (Nat.lt_of_not_le lower) hy
  rw [served] at idle
  exact Bool.false_ne_true idle.symm

/-! ### The acknowledge and RETI (R517, R518) -/

section Platform
variable {s : State}

theorem State.chainRequests_of_requester {k : Nat} (h : requester (chain s.devices) = some k) :
    s.chainRequests = true := by rw [State.chainRequests, h]; rfl

theorem State.ackByte_of_requester {k : Nat} {x : Slot} (h : requester (chain s.devices) = some k)
    (hx : (chain s.devices)[k]? = some x) (b : Byte) : s.ackByte b = x.vector := by
  simp [State.ackByte, h, hx]

theorem State.chain_answerAck {k : Nat} {x : Slot} (h : requester (chain s.devices) = some k)
    (hx : (chain s.devices)[k]? = some x) :
    chain s.answerAck.devices = (chain s.devices).set k (x.setTo false true) := by
  have acknowledged : s.answerAck.devices = setChainSlot k false true s.devices := by
    simp only [State.answerAck, h, ackSlot]
  rw [acknowledged, chain_setChainSlot hx]

theorem State.chain_retiSeen {k : Nat} {x : Slot} (h : inService (chain s.devices) = some k)
    (hx : (chain s.devices)[k]? = some x) :
    chain s.retiSeen.devices = (chain s.devices).set k (x.setTo x.pending false) := by
  have released : s.retiSeen.devices = setChainSlot k x.pending false s.devices := by
    simp only [State.retiSeen, h, releaseSlot, hx]
  rw [released, chain_setChainSlot hx]

/-- With no slot asking, the acknowledge finds what is on the bus and changes no slot. -/
theorem State.ack_of_no_requester (h : requester (chain s.devices) = none) (b : Byte) :
    s.chainRequests = false ∧ s.ackByte b = b ∧ s.answerAck.devices = s.devices := by
  simp [State.chainRequests, State.ackByte, State.answerAck, h]

theorem State.retiSeen_devices_of_none (h : inService (chain s.devices) = none) : s.retiSeen.devices = s.devices := by
  simp only [State.retiSeen, h]

end Platform

/-- Settles O57: the chain is the devices' slots side by side; the choices by induction on it. -/
theorem daisyChain : Obligations.DaisyChain :=
  ⟨⟨rfl, chain_cons⟩, fun c k => ⟨rfl, Device.slots_ctc c k⟩, fun _ => rfl, requester_iff,
    fun _ b _ _ h hx =>
      ⟨State.chainRequests_of_requester h, State.ackByte_of_requester h hx b, State.chain_answerAck h hx⟩,
    fun _ b h => State.ack_of_no_requester h b, fun _ _ => rfl, fun _ _ _ => State.chain_retiSeen,
    fun _ => State.retiSeen_devices_of_none, inService_iff, fun _ _ _ _ => requester_le⟩

end Sys2Proof.Machine

/-! ## The PIO: O58, O59, O60 -/

namespace Sys2Proof.Machine

/-! ### The mode 3 equation (60_exceptions.md R551, R553) -/

section Equation
variable (p : PioPort)

theorem PioPort.monitored_getLsbD {k : Nat} (hk : k < 8) :
    p.monitored.getLsbD k = (p.direction.getLsbD k && !p.mask.getLsbD k) := by
  rw [PioPort.monitored, BitVec.getLsbD_and, BitVec.getLsbD_not, decide_eq_true hk, Bool.true_and]

theorem PioPort.activeLines_getLsbD {k : Nat} (hk : k < 8) :
    p.activeLines.getLsbD k = (p.monitored.getLsbD k && (p.lines.getLsbD k == p.activeHigh)) := by
  rw [PioPort.activeLines, BitVec.getLsbD_and, Bool.and_comm]
  cases p.activeHigh
  · rw [if_neg Bool.false_ne_true, BitVec.getLsbD_not, decide_eq_true hk, Bool.true_and]
    cases p.lines.getLsbD k <;> rfl
  · rw [if_pos rfl]
    cases p.lines.getLsbD k <;> rfl

theorem PioPort.monitored_iff (k : Fin 8) :
    p.monitored.getLsbD k = true ↔ p.direction.getLsbD k = true ∧ p.mask.getLsbD k = false := by
  rw [p.monitored_getLsbD k.isLt, Bool.and_eq_true, Bool.not_eq_true']

theorem PioPort.activeLines_iff (k : Fin 8) :
    p.activeLines.getLsbD k = true ↔ p.monitored.getLsbD k = true ∧ p.lines.getLsbD k = p.activeHigh := by
  rw [p.activeLines_getLsbD k.isLt, Bool.and_eq_true, beq_iff_eq]

end Equation

theorem byte_ne_zero_iff (v : Byte) : v ≠ 0#8 ↔ ∃ k : Fin 8, v.getLsbD k = true := by
  refine ⟨fun h => ?_, fun ⟨k, hk⟩ h => ?_⟩
  · by_contra allClear
    refine h (BitVec.eq_of_getLsbD_eq fun i hi => ?_)
    rw [BitVec.getLsbD_zero]
    exact Bool.eq_false_iff.2 fun hb => allClear ⟨⟨i, hi⟩, hb⟩
  · rw [h, BitVec.getLsbD_zero] at hk
    exact Bool.false_ne_true hk

section Test
variable {p : PioPort}

theorem PioPort.equationHolds_or (h : p.andLogic = false) : p.equationHolds =
    decide (∃ k : Fin 8, p.direction.getLsbD k = true ∧ p.mask.getLsbD k = false ∧
      p.lines.getLsbD k = p.activeHigh) := by
  rw [PioPort.equationHolds, h, if_neg Bool.false_ne_true, Bool.eq_iff_iff, bne_iff_ne, decide_eq_true_iff,
    byte_ne_zero_iff]
  exact exists_congr fun k => by rw [p.activeLines_iff, p.monitored_iff, and_assoc]

theorem PioPort.activeLines_eq_monitored_iff : p.activeLines = p.monitored ↔
    ∀ k : Fin 8, p.direction.getLsbD k = true → p.mask.getLsbD k = false → p.lines.getLsbD k = p.activeHigh := by
  refine ⟨fun h k direction mask => ?_, fun h => BitVec.eq_of_getLsbD_eq fun i hi => ?_⟩
  · have on : p.monitored.getLsbD k = true := (p.monitored_iff k).2 ⟨direction, mask⟩
    rw [← h] at on
    exact ((p.activeLines_iff k).1 on).2
  · rw [p.activeLines_getLsbD hi]
    cases on : p.monitored.getLsbD i with
    | false => rfl
    | true =>
      obtain ⟨direction, mask⟩ := (p.monitored_iff ⟨i, hi⟩).1 on
      rw [Bool.true_and, beq_iff_eq]
      exact h ⟨i, hi⟩ direction mask

theorem PioPort.equationHolds_and (h : p.andLogic = true) : p.equationHolds =
    decide ((∃ k : Fin 8, p.direction.getLsbD k = true ∧ p.mask.getLsbD k = false) ∧
      ∀ k : Fin 8, p.direction.getLsbD k = true → p.mask.getLsbD k = false → p.lines.getLsbD k = p.activeHigh) := by
  rw [PioPort.equationHolds, h, if_pos rfl, Bool.eq_iff_iff, Bool.and_eq_true, beq_iff_eq, bne_iff_ne,
    decide_eq_true_iff, byte_ne_zero_iff, PioPort.activeLines_eq_monitored_iff, and_comm]
  exact and_congr_left' (exists_congr p.monitored_iff)

/-- In mode 3, with no word awaited, the port requests if the equation holds and it is enabled. -/
theorem PioPort.testLines_eq (mode : p.mode = .bitControl) (next : p.next = .command) :
    p.testLines false = { p with pending := p.pending || (p.enabled && p.equationHolds) } := by
  rw [PioPort.testLines]
  cases holds : p.equationHolds with
  | true => rw [if_pos ⟨mode, next, rfl, rfl⟩, Bool.and_true, PioPort.request]
  | false =>
    rw [if_neg fun h => Bool.false_ne_true h.2.2.1, Bool.and_false, Bool.or_false]

theorem PioPort.testLines_of_silent {b : Bool} (h : p.mode ≠ .bitControl ∨ p.next ≠ .command ∨ b = true) :
    p.testLines b = p := by
  refine if_neg fun ⟨mode, next, _, silent⟩ => ?_
  rcases h with h | h | h
  · exact h mode
  · exact h next
  · rw [silent] at h; exact Bool.false_ne_true h

end Test

/-! ### Data (R553) -/

/-- A byte read in mode 3, bit by bit. -/
theorem PioPort.dataByte_bitControl {p : PioPort} (h : p.mode = .bitControl) (free : Byte) {k : Nat} (hk : k < 8) :
    (p.dataByte free).getLsbD k =
      if p.direction.getLsbD k then p.lines.getLsbD k else p.outputReg.getLsbD k := by
  have mixed : p.dataByte free = (p.outputReg &&& ~~~p.direction) ||| (p.lines &&& p.direction) := by
    simp only [PioPort.dataByte, PioPort.sample, h]
  rw [mixed, BitVec.getLsbD_or, BitVec.getLsbD_and, BitVec.getLsbD_and, BitVec.getLsbD_not, decide_eq_true hk,
    Bool.true_and]
  cases p.direction.getLsbD k <;> simp

section Modes
variable {p : PioPort} (v free : Byte)

theorem PioPort.transfer_output (h : p.mode = .output) :
    p.writeData v = { p with outputReg := v, ready := true } ∧
    p.strobe v = { p with ready := false, pending := p.pending || p.enabled } := by
  simp only [PioPort.writeData, PioPort.strobe, PioPort.request, h, and_self]

theorem PioPort.transfer_bidirectional (h : p.mode = .bidirectional) :
    p.strobe v = { p with ready := false, pending := p.pending || p.enabled } ∧
    p.writeData v = { p with outputReg := v, ready := true } := by
  simp only [PioPort.writeData, PioPort.strobe, PioPort.request, h, and_self]

theorem PioPort.transfer_input (h : p.mode = .input) :
    p.strobe v = { p with inputReg := v, ready := false, pending := p.pending || p.enabled } ∧
    (p.strobe v).dataByte free = v ∧ p.afterRead = { p with ready := true } ∧
    p.writeData v = { p with outputReg := v } := by
  simp only [PioPort.writeData, PioPort.strobe, PioPort.request, PioPort.dataByte, PioPort.afterRead, PioPort.sample, h,
    and_self]

theorem PioPort.transfer_bitControl (h : p.mode = .bitControl) :
    p.afterRead = { p with inputReg := p.lines } ∧ p.writeData v = { p with outputReg := v } ∧ p.strobe v = p := by
  simp only [PioPort.writeData, PioPort.strobe, PioPort.afterRead, PioPort.sample, h, and_self]

end Modes

/-! ### The chip in modes 0, 1 and 3 (R551) -/

section Separate
variable {p : Pio} (h : p.portA.mode ≠ .bidirectional)
include h

theorem Pio.silentB_eq_false : p.silentB = false := beq_false_of_ne h

theorem Pio.strobeB_separate (v : Byte) : p.strobeB v = { p with portB := p.portB.strobe v } := by
  rw [Pio.strobeB, Pio.silentB_eq_false h, if_neg Bool.false_ne_true]

theorem Pio.setLines_true_separate (v : Byte) :
    p.setLines true v = { p with portB := PioPort.testLines false { p.portB with lines := v } } := by
  rw [Pio.setLines, Pio.silentB_eq_false h, if_pos rfl]

theorem Pio.afterRead_zero_separate : p.afterRead 0#2 = { p with portA := p.portA.afterRead } :=
  if_neg (by rw [Pio.silentB_eq_false h]; exact Bool.false_ne_true)

theorem Pio.controlA_separate (v : Byte) : p.controlA v = { p with portA := p.portA.writeControl false v } := by
  rw [Pio.controlA, Pio.silentB_eq_false h, Bool.false_and]
  exact if_neg Bool.false_ne_true

end Separate

/-- Settles O59: by the port's mode, and the equation bit by bit. -/
theorem pioTransfers : Obligations.PioTransfers := by
  refine ⟨fun p v h => PioPort.transfer_output v h, fun p v free h => PioPort.transfer_input v free h,
    fun p v free h => ⟨fun k hk => PioPort.dataByte_bitControl h free hk, PioPort.transfer_bitControl v h⟩,
    fun p mode next logic => ?or, fun p mode next logic => ?and, fun p b => PioPort.testLines_of_silent,
    fun p v h =>
      ⟨rfl, Pio.strobeB_separate h v, rfl, Pio.setLines_true_separate h v, Pio.afterRead_zero_separate h, rfl⟩⟩
  case or => rw [PioPort.testLines_eq mode next, PioPort.equationHolds_or logic]
  case and => rw [PioPort.testLines_eq mode next, PioPort.equationHolds_and logic]

/-! ### Mode 2 (R551, R553) -/

section Bidirectional
variable {p : Pio} (h : p.portA.mode = .bidirectional)
include h

theorem Pio.silentB_eq_true : p.silentB = true := beq_iff_eq.2 h

theorem Pio.strobeB_bidirectional (v : Byte) : p.strobeB v =
    { p with portA := { p.portA with inputReg := v }
             portB := { p.portB with ready := false, pending := p.portB.pending || p.portB.enabled } } :=
  if_pos (Pio.silentB_eq_true h)

theorem Pio.read_zero_bidirectional (free : Byte) : p.read free 0#2 = p.portA.inputReg := by
  have data : p.read free 0#2 = p.portA.dataByte free := rfl
  rw [data, PioPort.dataByte, h]

theorem Pio.afterRead_zero_bidirectional : p.afterRead 0#2 = { p with portB := { p.portB with ready := true } } :=
  if_pos (Pio.silentB_eq_true h)

/-- Port B's lines request nothing of their own. -/
theorem Pio.setLines_true_bidirectional (v : Byte) :
    p.setLines true v = { p with portB := { p.portB with lines := v } } := by
  rw [Pio.setLines, if_pos rfl, PioPort.testLines_of_silent (.inr (.inr (Pio.silentB_eq_true h)))]

/-- A control word that takes port A out of mode 2 has port B's equation tested. -/
theorem Pio.controlA_bidirectional (v : Byte) : p.controlA v =
    { p with portA := p.portA.writeControl false v
             portB := if (p.portA.writeControl false v).mode = .bidirectional then p.portB
                      else p.portB.testLines false } := by
  rw [Pio.controlA, Pio.silentB_eq_true h, Bool.true_and]
  by_cases still : (p.portA.writeControl false v).mode = .bidirectional
  · rw [if_pos still]
    exact if_neg (by rw [Pio.silentB_eq_true (p := { p with portA := p.portA.writeControl false v }) still]; nofun)
  · rw [if_neg still]
    exact if_pos (by rw [Pio.silentB_eq_false (p := { p with portA := p.portA.writeControl false v }) still]; rfl)

end Bidirectional

/-- Settles O60: each by port A's mode. -/
theorem pioBidirectional : Obligations.PioBidirectional := by
  refine ⟨fun p v free h => ?chip, fun p v h => Pio.controlA_bidirectional h v,
    fun p v h => PioPort.transfer_bidirectional v h⟩
  case chip =>
    obtain ⟨strobe, write⟩ := PioPort.transfer_bidirectional v h
    exact ⟨congrArg (fun a => { p with portA := a }) write, congrArg (fun a => { p with portA := a }) strobe,
      Pio.strobeB_bidirectional h v, Pio.read_zero_bidirectional h free, Pio.afterRead_zero_bidirectional h,
      fun _ => Pio.setLines_true_bidirectional h v⟩

/-! ### Control words (R552) -/

/-- The bits that identify a word. -/
theorem lowNibble_iff (v : Byte) (n : BitVec 4) : v &&& 0x0F#8 = 0#4 ++ n ↔ v.extractLsb' 0 4 = n := by
  have masked : (v &&& 0x0F#8).toNat = v.toNat % 16 := by
    rw [BitVec.toNat_and]
    exact Nat.and_two_pow_sub_one_eq_mod v.toNat 4
  have padded : (0#4 ++ n : Byte).toNat = n.toNat := by
    rw [toNat_append_eq_add]
    exact Nat.zero_add _
  rw [← BitVec.toNat_inj, ← BitVec.toNat_inj, masked, padded, low_digit_toNat]

theorem getLsbD_zero_eq_nibble (v : Byte) : v.getLsbD 0 = (v.extractLsb' 0 4).getLsbD 0 := by
  rw [BitVec.getLsbD_extractLsb']
  rfl

theorem highPair_eq (v : Byte) : v.extractLsb' 6 2 = BitVec.ofBool (v.getLsbD 7) ++ BitVec.ofBool (v.getLsbD 6) := by
  apply BitVec.eq_of_getLsbD_eq
  intro i hi
  rw [BitVec.getLsbD_extractLsb', BitVec.getLsbD_append, decide_eq_true hi]
  obtain rfl | rfl : i = 0 ∨ i = 1 := by omega
  · simp
  · simp

section Words
variable {p : PioPort} (b : Bool) {v : Byte}

theorem PioPort.writeControl_direction (h : p.next = .direction) (v : Byte) :
    p.writeControl b v = PioPort.testLines b { p with direction := v, next := .command } := by
  simp [PioPort.writeControl, PioPort.affectsEquation, PioPort.takeControl, h]

theorem PioPort.writeControl_mask (h : p.next = .mask) (v : Byte) :
    p.writeControl b v = PioPort.testLines b { p with mask := v, next := .command } := by
  simp [PioPort.writeControl, PioPort.affectsEquation, PioPort.takeControl, h]

variable (h : p.next = .command)
include h

theorem PioPort.affectsEquation_command :
    p.affectsEquation v = (v.extractLsb' 0 4 == 0b1111#4 || v.extractLsb' 0 4 == 0b0111#4) := by
  rw [PioPort.affectsEquation, h]

theorem PioPort.writeControl_vector (hv : v.getLsbD 0 = false) : p.writeControl b v = { p with vector := v } := by
  have nibble (n : BitVec 4) (hn : n.getLsbD 0 = true) : (v.extractLsb' 0 4 == n) = false := by
    refine beq_false_of_ne ?_
    rintro rfl
    rw [← getLsbD_zero_eq_nibble, hv] at hn
    exact Bool.false_ne_true hn
  have untested : p.affectsEquation v = false := by
    rw [PioPort.affectsEquation_command h, nibble _ rfl, nibble _ rfl, Bool.false_or]
  have taken : p.takeControl v = { p with vector := v } := by
    rw [PioPort.takeControl, h]
    exact if_pos hv
  rw [PioPort.writeControl, untested, if_neg Bool.false_ne_true, taken]

/-- A word with bit 0 = 1, by its identifying bits. -/
theorem PioPort.takeControl_odd (hv : v.getLsbD 0 = true) : p.takeControl v =
    if v.extractLsb' 0 4 = 0b1111#4 then p.setMode v
    else if v.extractLsb' 0 4 = 0b0111#4 then p.setInterruptControl v
    else if v.extractLsb' 0 4 = 0b0011#4 then p.setEnable (v.getLsbD 7)
    else p := by
  simp only [PioPort.takeControl, h]
  rw [if_neg (by rw [hv]; nofun)]
  generalize v.extractLsb' 0 4 = n
  split
  · rfl
  · rfl
  · rfl
  · next h15 h7 h3 => rw [if_neg h15, if_neg h7, if_neg h3]

/-- Such a word has the equation tested if it is a mode or an interrupt control word. -/
theorem PioPort.writeControl_odd {n : BitVec 4} (hn : v.extractLsb' 0 4 = n) (odd : n.getLsbD 0 = true) :
    p.writeControl b v =
      let q := if n = 0b1111#4 then p.setMode v else if n = 0b0111#4 then p.setInterruptControl v
        else if n = 0b0011#4 then p.setEnable (v.getLsbD 7) else p
      if n == 0b1111#4 || n == 0b0111#4 then q.testLines b else q := by
  have hv : v.getLsbD 0 = true := by rw [getLsbD_zero_eq_nibble, hn, odd]
  rw [PioPort.writeControl, PioPort.affectsEquation_command h, PioPort.takeControl_odd h hv, hn]

theorem PioPort.setInterruptControl_eq (v : Byte) : p.setInterruptControl v =
    { p with enabled := v.getLsbD 7 && p.enabled, enableNext := v.getLsbD 7
             andLogic := v.getLsbD 6, activeHigh := v.getLsbD 5
             pending := !v.getLsbD 4 && p.pending
             next := if v.getLsbD 4 then .mask else .command } := by
  rw [PioPort.setInterruptControl, ← h]
  cases v.getLsbD 4 <;> cases v.getLsbD 7 <;> rfl

theorem PioPort.writeControl_none (hv : v.getLsbD 0 = true) (other : v &&& 0x0F#8 ∉ [0x0F#8, 0x07#8, 0x03#8]) :
    p.writeControl b v = p := by
  simp only [List.mem_cons, List.not_mem_nil, or_false, not_or] at other
  obtain ⟨h15, h7, h3⟩ := other
  have n15 : v.extractLsb' 0 4 ≠ 0b1111#4 := fun e => h15 ((lowNibble_iff v 0b1111#4).2 e)
  have n7 : v.extractLsb' 0 4 ≠ 0b0111#4 := fun e => h7 ((lowNibble_iff v 0b0111#4).2 e)
  have n3 : v.extractLsb' 0 4 ≠ 0b0011#4 := fun e => h3 ((lowNibble_iff v 0b0011#4).2 e)
  rw [PioPort.writeControl_odd b h rfl (by rw [← getLsbD_zero_eq_nibble, hv]), if_neg n15, if_neg n7, if_neg n3]
  exact if_neg (by rw [beq_false_of_ne n15, beq_false_of_ne n7]; nofun)

omit h

theorem PioPort.setMode_eq (p : PioPort) (v : Byte) : p.setMode v =
    { p with mode := if v.getLsbD 7 then (if v.getLsbD 6 then .bitControl else .bidirectional)
                     else (if v.getLsbD 6 then .input else .output)
             next := if v.getLsbD 7 && v.getLsbD 6 then .direction else .command } := by
  rw [PioPort.setMode, highPair_eq]
  cases v.getLsbD 7 <;> cases v.getLsbD 6 <;> rfl

theorem PioPort.setEnable_eq (p : PioPort) (on : Bool) :
    p.setEnable on = { p with enabled := on && p.enabled, enableNext := on } := by
  cases on <;> rfl

end Words

/-! ### M1 and the reset (R552, R554, R574) -/

theorem PioPort.m1_eq (p : PioPort) (b : Bool) : p.m1 b =
    if p.enableNext = true then
      if p.enabled = true then { p with enableNext := false }
      else PioPort.testLines b { p with enabled := true, enableNext := false }
    else p := by
  unfold PioPort.m1
  split
  · split
    · next enabled => rw [← enabled]
    · rfl
  · rfl

theorem PioPort.drawn_vector_even (n k : Nat) (p : PioPort) : (p.drawn n k).vector.getLsbD 0 = false := by
  have masked : (p.drawn n k).vector = Config.freeByte (n + 2) &&& 0xFE#8 := rfl
  rw [masked, BitVec.getLsbD_and]
  exact Bool.and_false _

/-- Settles O58: a word by what the port awaits and its identifying bits. -/
theorem pioControlWords : Obligations.PioControlWords := by
  refine ⟨fun p b v => ⟨fun h => PioPort.writeControl_direction b h v, fun h => PioPort.writeControl_mask b h v,
    fun h => PioPort.writeControl_vector b h, fun h hv => ?mode, fun h hv => ?interruptControl, fun h hv => ?enable,
    fun h => PioPort.writeControl_none b h⟩, PioPort.m1_eq, fun p c => ⟨rfl, rfl⟩,
    fun p v free => ⟨rfl, rfl, fun h => Pio.controlA_separate h v, rfl, rfl, rfl, rfl, rfl⟩,
    fun p n k b => ⟨rfl, rfl, ?reset⟩⟩
  case mode =>
    rw [PioPort.writeControl_odd b h ((lowNibble_iff v 0b1111#4).1 hv) rfl, ← PioPort.setMode_eq]
    rfl
  case interruptControl =>
    rw [PioPort.writeControl_odd b h ((lowNibble_iff v 0b0111#4).1 hv) rfl, ← PioPort.setInterruptControl_eq h]
    rfl
  case enable =>
    rw [PioPort.writeControl_odd b h ((lowNibble_iff v 0b0011#4).1 hv) rfl, ← PioPort.setEnable_eq]
    rfl
  case reset =>
    cases b
    · exact ⟨rfl, rfl, PioPort.drawn_vector_even n n p.portA⟩
    · exact ⟨rfl, rfl, PioPort.drawn_vector_even (n + 5) (n + 9) p.portB⟩

end Sys2Proof.Machine
